-- ==== Sys2Proof/Word.lean ====
section
/-! DEFINITION. The unsigned widths of the block (spec/00_scope.md R12, R13): u8, u16 and u64, and byte sequences (R14). -/

namespace Sys2Proof

/-- `u8` (R13). -/
abbrev Byte := BitVec 8

/-- `u16` (R13): the length field and the MAC16 addresses (R12). -/
abbrev Word16 := BitVec 16

/-- `u64` (R13): the MAC64 addresses (R12). -/
abbrev Word64 := BitVec 64

/-- A finite sequence of `u8`, first byte first, which is wire order (R14). -/
abbrev Bytes := List Byte

end Sys2Proof
end

