-- ==== Sys2Proof/Config.lean ====
section
/-! DEFINITION. Fixed constants (spec/00_scope.md R12), the parameters of an instance (R6 to R10) and the
four default addresses whose values the spec leaves OPEN (R11). -/

namespace Sys2Proof

/-- `DELIM`, the delimiter byte (R12, R71). -/
abbrev Config.delim : Byte := 0x7E

/-- `TYPE_RX`, the frame type of a ReceivePacket (R12). -/
abbrev Config.typeRx : Byte := 0x90

/-- `TYPE_TX`, the frame type of a TransmitRequest (R12). -/
abbrev Config.typeTx : Byte := 0x10

/-- `RX_FIXED`: the width in bytes of a ReceivePacket's fields after `frame_type` (R12, R73). -/
abbrev Config.rxFixed : Nat := 11

/-- `TX_FIXED`: the width in bytes of a TransmitRequest's fields after `frame_type` (R12, R74). -/
abbrev Config.txFixed : Nat := 13

/-- `P_RX_ADDR64_DEFAULT` (R11). OPEN: no body, nothing in Lean knows its value (log 5). -/
opaque Config.rxAddr64Default : Word64

/-- `P_RX_ADDR16_DEFAULT` (R11). OPEN: no body (log 5). -/
opaque Config.rxAddr16Default : Word16

/-- `P_TX_ADDR64_DEFAULT` (R11). OPEN: no body (log 5). -/
opaque Config.txAddr64Default : Word64

/-- `P_TX_ADDR16_DEFAULT` (R11). OPEN: no body (log 5). -/
opaque Config.txAddr16Default : Word16

/-- What DECODE_RX reads as `src64`, `src16`, `options` and `data` where the spec states no value for the field: a
function of the operands with no body, so nothing in Lean knows its values (log 8, DESIGN CHOICE). -/
opaque Config.unstatedFields :
    (t : Byte) → (len : Word16) → (body : Bytes) → (sum ck : Byte) → Word64 × Word16 × Byte × Bytes

/-- `P_TXQ_DEPTH` (R10): `unbounded`, or a number, which R10 wants at least 1 (`Params.legal`). -/
inductive QueueDepth where
  | unbounded
  | atMost (n : Nat)
  deriving DecidableEq, Repr

/-- The parameters an instance is made with, fixed for its life (R6 to R10, R37). -/
structure Params where
  /-- `P_DATA_CAP` (R6); at most 65521, the bound R129 asks of a model (log 10). -/
  dataCap : Fin 65522
  /-- `P_VERIFY_CHECKSUM` (R8). -/
  verifyChecksum : Bool
  /-- `P_READ_TIMEOUT_EN` (R9). -/
  readTimeoutEn : Bool
  /-- `P_TXQ_DEPTH` (R10). -/
  txqDepth : QueueDepth
  deriving DecidableEq, Repr

/-- The queue depth, where it is a number, is at least 1 (R10). -/
def Params.legal (p : Params) : Bool :=
  match p.txqDepth with
  | .unbounded => true
  | .atMost n => 1 ≤ n

/-- The capacity of a payload in bytes, `P_DATA_CAP` (R6). -/
abbrev Params.cap (p : Params) : Nat := p.dataCap.val

/-- `RX_BODY_CAP = 11 + P_DATA_CAP` (R7). -/
def Params.rxBodyCap (p : Params) : Nat := Config.rxFixed + p.cap

/-- The reference parameters: `P_DATA_CAP` at its default (R6), the reference's `false` for R8 and R9,
and an unbounded queue, as spec/95_test_vectors.md takes them. DESIGN CHOICE for the OPEN ones (log 4). -/
def Params.reference : Params :=
  { dataCap := 256, verifyChecksum := false, readTimeoutEn := false, txqDepth := .unbounded }

end Sys2Proof
end

