-- ==== Sys2Proof/Syntax.lean ====
section
/-! DEFINITION. The operations of the block: one constructor for each row of spec/opcode_table.json
(spec/30_encoding.md R81 for the 29 commands, R71 and R78 for the 4 wire rows), the records they carry
(spec/10_state.md R32, R33; spec/41_frames.md R121, R133) and the input events that deliver them. -/

namespace Sys2Proof

/-- A ReceivePacket as a constructor builds it: `RxFrame` (R32). -/
structure RxFrame where
  src64 : Word64
  src16 : Word16
  options : Byte
  data : Bytes
  deriving DecidableEq, Repr

/-- A TransmitRequest (R33). -/
structure TxRequest where
  frameId : Byte
  dst64 : Word64
  dst16 : Word16
  radius : Byte
  options : Byte
  data : Bytes
  deriving DecidableEq, Repr

/-- The closed tagged union `Frame := Rx f | Tx q` (R121). -/
inductive Frame where
  | rx (f : RxFrame)
  | tx (q : TxRequest)
  deriving DecidableEq, Repr

/-- `HexMode` (R82, R133): `NONE`, `BEFORE_CK`, `ALL`. -/
inductive HexMode where
  | none
  | beforeCk
  | all
  deriving DecidableEq, Repr

/-- One constructor per row of spec/opcode_table.json. The last four are the table's wire rows: a byte
of the receive line, named by its place in a frame (log 3). -/
inductive Instr where
  /-- CONNECT (R180) with the outcome of opening the transport. -/
  | connect (openOk : Bool)
  /-- STOP (R182). -/
  | stop
  /-- SEND (R181). -/
  | send (q : TxRequest)
  /-- RX_BYTE (R150). -/
  | rxByte (b : Byte)
  /-- RX_ERROR (R160). -/
  | rxError
  /-- RX_TIMEOUT (R161). -/
  | rxTimeout
  /-- TX_BYTE (R183). -/
  | txByte
  /-- TX_ERROR (R184). -/
  | txError
  /-- BE_ENC8 (R101). -/
  | beEnc8 (v : Byte)
  /-- BE_ENC16 (R102). -/
  | beEnc16 (v : Word16)
  /-- BE_ENC64 (R103). -/
  | beEnc64 (v : Word64)
  /-- BE_DEC16 (R104). -/
  | beDec16 (bs : Bytes)
  /-- BE_DEC64 (R105). -/
  | beDec64 (bs : Bytes)
  /-- BYTE_SUM (R106). -/
  | byteSum (bs : Bytes)
  /-- CHECKSUM (R107). -/
  | checksum (bs : Bytes)
  /-- HEX_TEXT (R109). -/
  | hexText (bs : Bytes) (sep : Bool) (trail : Bool)
  /-- TX_NEW0 (R122). -/
  | txNew0
  /-- TX_NEW1 (R123). -/
  | txNew1 (a64 : Word64)
  /-- TX_NEW2 (R124). -/
  | txNew2 (a64 : Word64) (a16 : Word16)
  /-- TX_SET_DATA (R125). -/
  | txSetData (q : TxRequest) (bs : Bytes)
  /-- RX_NEW0 (R126). -/
  | rxNew0
  /-- RX_NEW1 (R127). -/
  | rxNew1 (a64 : Word64)
  /-- RX_NEW2 (R128). -/
  | rxNew2 (a64 : Word64) (a16 : Word16)
  /-- FRAME_LENGTH (R129). -/
  | frameLength (f : Frame)
  /-- FRAME_CHECKSUM (R130). -/
  | frameChecksum (f : Frame)
  /-- SERIALIZE_TX (R131). -/
  | serializeTx (q : TxRequest)
  /-- SERIALIZE_RX (R132). -/
  | serializeRx (f : RxFrame)
  /-- HEX_FRAME (R133). -/
  | hexFrame (f : Frame) (mode : HexMode)
  /-- DECODE_RX (R157): frame type, length field, stored body, byte sum, received checksum. -/
  | decodeRx (t : Byte) (len : Word16) (body : Bytes) (sum : Byte) (ck : Byte)
  /-- FRAME_DELIMITER (R71): byte 0 of a frame, 0x7E. -/
  | frameDelimiter
  /-- RX_PACKET (R78): byte 3 of a frame, 0x90. -/
  | rxPacket
  /-- TX_REQUEST (R78): byte 3 of a frame, 0x10. -/
  | txRequest
  /-- UNRECOGNIZED_TYPE (R78): byte 3 of a frame, any other value. -/
  | unrecognizedType (t : Byte)
  deriving DecidableEq, Repr

/-- One input event as it waits to be taken (R5): a command word (code and operand bytes, R81), or a
byte on the receive line. -/
inductive InEvent where
  | command (w : Bytes)
  | wire (b : Byte)
  deriving DecidableEq, Repr

/-- Where in a frame the next received byte stands, as far as the table's wire rows tell places apart:
byte 0 (the delimiter is searched), byte 3 (`frame_type`), or anywhere else. -/
inductive WirePlace where
  | delimiter
  | frameType
  | elsewhere
  deriving DecidableEq, Repr

end Sys2Proof
end

