-- ==== Sys2Proof/Machine/State.lean ====
section
/-! DEFINITION. The state record (spec/10_state.md R20 to R33), the values a step returns, the reasons a
step can stop, and the state after reset (spec/70_reset_and_hazards.md R241). -/

namespace Sys2Proof.Machine

open Sys2Proof

/-- `ErrCode` (spec/60_exceptions.md R210); the numbers are `ErrCode.code`. -/
inductive ErrCode where
  | ok
  | connectionError
  | alreadyConnected
  | notConnected
  | payloadTooLarge
  | queueFull
  | transportRead
  | transportWrite
  | readTimeout
  | zeroLength
  | checksumMismatch
  | unknownType
  | shortFrame
  | oversize
  deriving DecidableEq, Repr

/-- `RxState`, the parser's place in a frame (R22). -/
inductive RxState where
  | idle
  | awaitDelim
  | lenHi
  | lenLo
  | type
  | body
  | cksum
  deriving DecidableEq, Repr

/-- A decoded ReceivePacket (R32): four fields, and the length and checksum as received. -/
structure RxRecord where
  src64 : Word64
  src16 : Word16
  options : Byte
  data : Bytes
  rxLength : Word16
  rxChecksum : Byte
  deriving DecidableEq, Repr

/-- `TxJob` (R28): an accepted request and its serialization, fixed when it was accepted. -/
structure TxJob where
  req : TxRequest
  bytes : Bytes
  deriving DecidableEq, Repr

/-- `TxWork` (R29): the job being written and the index of its next byte. -/
structure TxWork where
  req : TxRequest
  bytes : Bytes
  idx : Nat
  deriving DecidableEq, Repr

/-- `Event` (R31). -/
inductive Event where
  /-- `EvRxFrame`: the read handler is called with a decoded frame. -/
  | rxFrame (r : RxRecord)
  /-- `EvRxDrop`: the read handler is called with no frame. -/
  | rxDrop (e : ErrCode)
  /-- `EvTxDone`: the write handler is called. -/
  | txDone (q : TxRequest) (st : ErrCode)
  /-- `EvError`: an error signal with no handler call. -/
  | error (e : ErrCode)
  deriving DecidableEq, Repr

/-- What a step may return (R5): a host command's status (R34), or the value of a function
(spec/40_codec.md, 41_frames.md, R157). Text is the bytes of its characters (R16). -/
inductive Value where
  /-- The status of CONNECT, SEND, STOP or a `SENDn` pseudo-operation (R34, R84). -/
  | status (e : ErrCode)
  | u8 (v : Byte)
  | u16 (v : Word16)
  | u64 (v : Word64)
  | bytes (bs : Bytes)
  | text (cs : Bytes)
  | request (q : TxRequest)
  | packet (f : RxFrame)
  /-- `Ok r` of DECODE_RX. -/
  | decoded (r : RxRecord)
  /-- `Err e` of DECODE_RX and TX_SET_DATA. -/
  | err (e : ErrCode)
  deriving DecidableEq, Repr

/-- The block's state. The nine fields from `rxState` to `log` are the spec's record (R20); the other
four are the model's: the instance's parameters, the transmit line, the value the latest step
returned and the input events still to be taken (logs 1, 4, 6). -/
structure State where
  /-- The instance's parameters (spec/00_scope.md R6 to R10); no operation changes them (R37). -/
  params : Params
  /-- `rx_state` (R22). -/
  rxState : RxState
  /-- `rx_len` (R23). -/
  rxLen : Word16
  /-- `rx_type` (R24). -/
  rxType : Byte
  /-- `rx_body` (R25). -/
  rxBody : Bytes
  /-- `rx_count` (R26). -/
  rxCount : Word16
  /-- `rx_sum` (R27). -/
  rxSum : Byte
  /-- `tx_queue` (R28). -/
  txQueue : List TxJob
  /-- `tx_cur` (R29). -/
  txCur : Option TxWork
  /-- `log` (R30), oldest event first. -/
  log : List Event
  /-- The bytes placed on the transmit line so far, oldest first (R15 `out`, R185). -/
  line : Bytes
  /-- What the latest step returned, if anything (R5). -/
  ret : Option Value
  /-- The input events still to be taken, next one first (R5, R62). -/
  input : List InEvent
  deriving DecidableEq, Repr

/-- The reasons the machine can stop with a fault. The spec has none (R227: no error is ever upgraded
to a crash): both stand only in states that `State.Inv` (Sys2Proof/Safety.lean, from R39) rules out, which no run
reaches. Safe: the model stops where the spec's pseudocode has no value. -/
inductive Fault where
  /-- Raised by RX_BYTE in `Cksum` when the length field is 0, for which DECODE_RX has no operand (R157; R39
  item 3 broken). Safe (log 9). -/
  | noDecodeOperands
  /-- Raised by TX_BYTE when the job holds no byte at its index (R39 item 6 broken). Safe (log 9). -/
  | noJobByte
  deriving DecidableEq, Repr

/-- The reasons a step has no meaning. -/
inductive Refusal where
  /-- An instruction with no meaning yet. Raised by no arm. Safe. -/
  | notModelled (mnemonic : String)
  /-- Raised by `step` when no input event waits: a step consumes one (R5). Safe (log 1). -/
  | noInput
  /-- Raised by `step` for a command code that names no operation (R81). Safe. -/
  | unassignedCode (op : Byte)
  /-- Raised by `step` for operand bytes that are no operand record of the code (R82). Safe (log 2). -/
  | malformedCommand
  /-- Raised by a meaning whose operand is outside its stated form (R82, R100). Safe. -/
  | operandForm (mnemonic : String)
  /-- Raised by RX_TIMEOUT, TX_BYTE and TX_ERROR where the event is not enabled, and so does not
  occur (R161, R183, R184). Safe (log 7). -/
  | notEnabled (mnemonic : String)
  deriving DecidableEq, Repr

/-- The outcome of a step of this machine. -/
abbrev Result := Host.Outcome State Fault Refusal

/-- A new instance made with the parameters `p`: every field at its reset value (R240, R241). -/
def State.init (p : Params) : State :=
  { params := p, rxState := .idle, rxLen := 0, rxType := 0, rxBody := [], rxCount := 0, rxSum := 0,
    txQueue := [], txCur := none, log := [], line := [], ret := none, input := [] }

/-- The machine after reset: a new instance with the reference parameters (R241; log 4). -/
def State.reset : State := State.init Params.reference

end Sys2Proof.Machine
end

