-- ==== Sys2Proof/Machine/Ops.lean ====
section
/-! DEFINITION. The named operations the rules are written with (spec/00_scope.md R15): reading a byte
buffer, emitting an event, placing a byte on the line, returning a value, and the one effect of an
error (spec/60_exceptions.md R226: no saved state, no handler, no return). -/

namespace Sys2Proof.Machine

open Sys2Proof

/-- `MemRead(buf, i, n)`: `buf[i..i+n)` (R15, R55). -/
def memRead (buf : Bytes) (i n : Nat) : Bytes := (buf.drop i).take n

/-- `MemWrite(buf, i, 1, b)` at the end of the buffer, the only place a rule writes (R55), and only
while the buffer holds fewer than `cap` bytes counted by `i` (R155). -/
def memAppend (buf : Bytes) (cap i : Nat) (b : Byte) : Bytes := if i < cap then buf ++ [b] else buf

/-- `takeZ(s)`: the longest prefix that holds no 0x00 (R14). -/
def takeZ (s : Bytes) : Bytes := s.takeWhile (· ≠ 0)

/-- `emit(ev)`: append `ev` to the event log (R15, R30). -/
def State.emit (s : State) (ev : Event) : State := { s with log := s.log ++ [ev] }

/-- `out(b)`: place `b` on the transmit line (R15). -/
def State.out (s : State) (b : Byte) : State := { s with line := s.line ++ [b] }

/-- The step returns `v` (R15 `return`, R34; a function's value). -/
def State.returns (s : State) (v : Value) : State := { s with ret := some v }

/-- `s.rx_state <- S`, the parser's transition (R15). -/
def State.goto (s : State) (r : RxState) : State := { s with rxState := r }

/-- The end of a frame on the receive side: one event, and back to the delimiter search. It is also the
whole entry of every receive-side error (R226, R227): the other `rx_*` fields stay as they are. -/
def State.endFrame (s : State) (ev : Event) : State := (s.emit ev).goto .awaitDelim

/-- The parser's fields as CONNECT clears them, ready for the delimiter search (R180). -/
def State.clearParser (s : State) : State :=
  { s with rxState := .awaitDelim, rxLen := 0, rxType := 0, rxBody := [], rxCount := 0, rxSum := 0 }

/-- What STOP leaves: not connected, nothing queued, nothing in flight; no event (R182). -/
def State.shutDown (s : State) : State := { s with rxState := .idle, txQueue := [], txCur := none }

/-- The block is connected exactly when `rx_state` is not `Idle` (R21). -/
def State.connected (s : State) : Bool := s.rxState ≠ .idle

/-- A frame is partially read (R38; the states R161 names). -/
def State.partialFrame (s : State) : Bool :=
  match s.rxState with
  | .idle => false
  | .awaitDelim => false
  | .lenHi => true
  | .lenLo => true
  | .type => true
  | .body => true
  | .cksum => true

/-- `s.tx_queue <- queue` (R183, R184). -/
def State.withQueue (s : State) (queue : List TxJob) : State := { s with txQueue := queue }

/-- Accept a job: the request and its serialization join the end of the queue (R181). -/
def State.enqueue (s : State) (q : TxRequest) (bytes : Bytes) : State :=
  s.withQueue (s.txQueue ++ [TxJob.mk q bytes])

/-- The work a transmit event acts on, and the queue once it is taken: the job in flight, or else the
head of the queue started at its first byte; none when there is neither (R183, R184). -/
def State.nextWork (s : State) : Option (TxWork × List TxJob) :=
  match s.txCur with
  | some w => some (w, s.txQueue)
  | none =>
    match s.txQueue with
    | [] => none
    | j :: js => some ({ req := j.req, bytes := j.bytes, idx := 0 }, js)

/-- The end of a transmit job, with its completion event (R183, R184). -/
def State.endJob (s : State) (q : TxRequest) (st : ErrCode) : State :=
  { s.emit (.txDone q st) with txCur := none }

/-- The queue is full: the depth is a number and that many jobs wait (R181, R215). -/
def State.queueFull (s : State) : Bool :=
  match s.params.txqDepth with
  | .unbounded => false
  | .atMost n => s.txQueue.length = n

/-- The place of the next received byte in its frame, as far as the table's wire rows tell places
apart (R71, R78; log 3). -/
def RxState.wirePlace (r : RxState) : WirePlace :=
  match r with
  | .awaitDelim => .delimiter
  | .type => .frameType
  | .idle => .elsewhere
  | .lenHi => .elsewhere
  | .lenLo => .elsewhere
  | .body => .elsewhere
  | .cksum => .elsewhere

end Sys2Proof.Machine
end

