-- ==== Sys2Proof/Machine/Codec.lean ====
section
/-! DEFINITION. The codec functions (spec/40_codec.md R100 to R109): big-endian encode and decode, byte
sum, checksum, hexadecimal text. Each meaning returns a value and changes nothing else (R100). -/

namespace Sys2Proof.Machine

open Sys2Proof

/-- `enc_8` (R101). -/
def enc8 (v : Byte) : Bytes := [v]

/-- `enc_16` (R102): `[v[15:8], v[7:0]]`. -/
def enc16 (v : Word16) : Bytes := [v.extractLsb' 8 8, v.extractLsb' 0 8]

/-- `enc_64` (R103): the byte of bits 63:56 first. -/
def enc64 (v : Word64) : Bytes :=
  [v.extractLsb' 56 8, v.extractLsb' 48 8, v.extractLsb' 40 8, v.extractLsb' 32 8,
   v.extractLsb' 24 8, v.extractLsb' 16 8, v.extractLsb' 8 8, v.extractLsb' 0 8]

/-- `dec_16` (R104): `(s[0] << 8) | s[1]`; a sequence of another length has no value. -/
def dec16 (s : Bytes) : Option Word16 :=
  match s with
  | [a, b] => some (a ++ b)
  | _ => none

/-- `dec_64` (R105); a sequence of another length has no value. -/
def dec64 (s : Bytes) : Option Word64 :=
  match s with
  | [a, b, c, d, e, f, g, h] => some (a ++ b ++ c ++ d ++ e ++ f ++ g ++ h)
  | _ => none

/-- `byte_sum` (R106): the sum of the bytes modulo 256. -/
def byteSum (s : Bytes) : Byte := BitVec.ofNat 8 (s.map BitVec.toNat).sum

/-- `checksum` (R107): `0xFF - byte_sum(s)`. -/
def checksum (s : Bytes) : Byte := 0xFF - byteSum s

/-- `hexdig` (R108): `0`–`9` then `A`–`F`, as ASCII codes (R16). -/
def hexdig (d : BitVec 4) : Byte := if d.toNat ≤ 9 then 0x30 + d.setWidth 8 else 0x37 + d.setWidth 8

/-- `hex2` (R108): always two characters. -/
def hex2 (b : Byte) : Bytes := [hexdig (b.extractLsb' 4 4), hexdig (b.extractLsb' 0 4)]

/-- The separator character, the space (R109, R16). -/
def space : Byte := 0x20

/-- The digits of `s`, with a space between two octets when `sep` (R109). -/
def hexOctets (sep : Bool) (s : Bytes) : Bytes :=
  match s with
  | [] => []
  | [b] => hex2 b
  | b :: c :: r => hex2 b ++ (if sep then [space] else []) ++ hexOctets sep (c :: r)

/-- `to_hex_text` (R109). -/
def toHexText (s : Bytes) (sep trail : Bool) : Bytes :=
  hexOctets sep s ++ (if trail then [space] else [])

/-- BE_ENC8 (R101). -/
def execBeEnc8 (v : Byte) (s : State) : Result := .next (s.returns (.bytes (enc8 v)))

/-- BE_ENC16 (R102). -/
def execBeEnc16 (v : Word16) (s : State) : Result := .next (s.returns (.bytes (enc16 v)))

/-- BE_ENC64 (R103). -/
def execBeEnc64 (v : Word64) (s : State) : Result := .next (s.returns (.bytes (enc64 v)))

/-- BE_DEC16 (R104); a sequence whose length is not 2 is refused (R82, R100). -/
def execBeDec16 (bs : Bytes) (s : State) : Result :=
  match dec16 bs with
  | some v => .next (s.returns (.u16 v))
  | none => .refused (.operandForm "BE_DEC16")

/-- BE_DEC64 (R105); a sequence whose length is not 8 is refused (R82, R100). -/
def execBeDec64 (bs : Bytes) (s : State) : Result :=
  match dec64 bs with
  | some v => .next (s.returns (.u64 v))
  | none => .refused (.operandForm "BE_DEC64")

/-- BYTE_SUM (R106). -/
def execByteSum (bs : Bytes) (s : State) : Result := .next (s.returns (.u8 (byteSum bs)))

/-- CHECKSUM (R107). -/
def execChecksum (bs : Bytes) (s : State) : Result := .next (s.returns (.u8 (checksum bs)))

/-- HEX_TEXT (R109). -/
def execHexText (bs : Bytes) (sep trail : Bool) (s : State) : Result :=
  .next (s.returns (.text (toHexText bs sep trail)))

end Sys2Proof.Machine
end

