-- ==== Sys2Proof/Machine/Operands.lean ====
section
/-! DEFINITION. The operand forms that depend on more than a width (spec/30_encoding.md R82): an operand outside
its form is refused, not given a value. -/

namespace Sys2Proof.Machine

open Sys2Proof

/-- A payload: no 0x00 byte, at most `P_DATA_CAP` bytes (R32, R33, R75). -/
def payloadForm (cap : Nat) (data : Bytes) : Bool := data.all (· ≠ 0) && data.length ≤ cap

/-- A well-formed `TxRequest` (R33, R82, R181). -/
def txForm (cap : Nat) (q : TxRequest) : Bool := payloadForm cap q.data

/-- A well-formed `RxFrame` (R32, R82). -/
def rxForm (cap : Nat) (f : RxFrame) : Bool := payloadForm cap f.data

/-- A well-formed `Frame` (R121, R82). -/
def frameForm (cap : Nat) (f : Frame) : Bool :=
  match f with
  | .rx f => rxForm cap f
  | .tx q => txForm cap q

/-- A well-formed decoded record (R32). -/
def recordForm (cap : Nat) (r : RxRecord) : Bool := payloadForm cap r.data

/-- The `RxFrame` of a decoded record: its first four fields (R121). -/
def RxRecord.frame (r : RxRecord) : RxFrame :=
  { src64 := r.src64, src16 := r.src16, options := r.options, data := r.data }

end Sys2Proof.Machine
end

