-- ==== Sys2Proof/Machine/Frames.lean ====
section
/-! DEFINITION. The frame records: constructors, derived length and checksum, serialization and hex text
(spec/41_frames.md R120 to R133). Each meaning returns a value and changes nothing else; an operand
outside its form is refused (spec/30_encoding.md R82). -/

namespace Sys2Proof.Machine

open Sys2Proof

/-- `TX_NEW0()` (R122). -/
def txNew0 : TxRequest :=
  { frameId := 0, dst64 := Config.txAddr64Default, dst16 := Config.txAddr16Default, radius := 0,
    options := 0, data := [] }

/-- `TX_NEW1(a64)` (R123). -/
def txNew1 (a64 : Word64) : TxRequest := { txNew0 with dst64 := a64 }

/-- `TX_NEW2(a64, a16)` (R124). -/
def txNew2 (a64 : Word64) (a16 : Word16) : TxRequest := { txNew0 with dst64 := a64, dst16 := a16 }

/-- `TX_SET_DATA(q, s)` (R125): the capacity is tested on the copied payload; none is
`Err(PayloadTooLarge)`. -/
def txSetData (cap : Nat) (q : TxRequest) (s : Bytes) : Option TxRequest :=
  if cap < (takeZ s).length then none else some { q with data := takeZ s }

/-- `RX_NEW0()` (R126). -/
def rxNew0 : RxFrame :=
  { src64 := Config.rxAddr64Default, src16 := Config.rxAddr16Default, options := 0, data := [] }

/-- `RX_NEW1(a64)` (R127). -/
def rxNew1 (a64 : Word64) : RxFrame := { rxNew0 with src64 := a64 }

/-- `RX_NEW2(a64, a16)` (R128). -/
def rxNew2 (a64 : Word64) (a16 : Word16) : RxFrame := { rxNew0 with src64 := a64, src16 := a16 }

/-- `FRAME_LENGTH` (R129): a u16, which the bound on `P_DATA_CAP` makes exact. -/
def frameLength (f : Frame) : Word16 :=
  match f with
  | .rx f => BitVec.ofNat 16 (1 + Config.rxFixed + f.data.length)
  | .tx q => BitVec.ofNat 16 (1 + Config.txFixed + q.data.length)

/-- The bytes from `frame_type` through the last payload byte of a TransmitRequest (R131, R74). -/
def txBody (q : TxRequest) : Bytes :=
  [Config.typeTx, q.frameId] ++ enc64 q.dst64 ++ enc16 q.dst16 ++ [q.radius, q.options] ++ q.data

/-- The bytes from `frame_type` through the last payload byte of a ReceivePacket (R132, R73). -/
def rxBody (f : RxFrame) : Bytes :=
  [Config.typeRx] ++ enc64 f.src64 ++ enc16 f.src16 ++ [f.options] ++ f.data

/-- The bytes from `frame_type` through the last payload byte (R70). -/
def frameBody (f : Frame) : Bytes :=
  match f with
  | .rx f => rxBody f
  | .tx q => txBody q

/-- `FRAME_CHECKSUM` (R130). -/
def frameChecksum (f : Frame) : Byte := checksum (frameBody f)

/-- The wire form of a frame (R70): delimiter, length, type and body, checksum. -/
def serialize (f : Frame) : Bytes :=
  [Config.delim] ++ enc16 (frameLength f) ++ frameBody f ++ [checksum (frameBody f)]

/-- `SERIALIZE_TX` (R131). -/
def serializeTx (q : TxRequest) : Bytes := serialize (.tx q)

/-- `SERIALIZE_RX` (R132). -/
def serializeRx (f : RxFrame) : Bytes := serialize (.rx f)

/-- `HEX_FRAME` (R133). -/
def hexFrame (f : Frame) (mode : HexMode) : Bytes :=
  match mode with
  | .none => toHexText (serialize f) false false
  | .beforeCk =>
    toHexText (memRead (serialize f) 0 ((serialize f).length - 1)) false true ++
      toHexText (memRead (serialize f) ((serialize f).length - 1) 1) false false
  | .all => toHexText (serialize f) true true

/-- TX_NEW0 (R122). -/
def execTxNew0 (s : State) : Result := .next (s.returns (.request txNew0))

/-- TX_NEW1 (R123). -/
def execTxNew1 (a64 : Word64) (s : State) : Result := .next (s.returns (.request (txNew1 a64)))

/-- TX_NEW2 (R124). -/
def execTxNew2 (a64 : Word64) (a16 : Word16) (s : State) : Result :=
  .next (s.returns (.request (txNew2 a64 a16)))

/-- TX_SET_DATA (R125, R214). -/
def execTxSetData (q : TxRequest) (bs : Bytes) (s : State) : Result :=
  if txForm s.params.cap q then
    match txSetData s.params.cap q bs with
    | some q' => .next (s.returns (.request q'))
    | none => .next (s.returns (.err .payloadTooLarge))
  else .refused (.operandForm "TX_SET_DATA")

/-- RX_NEW0 (R126). -/
def execRxNew0 (s : State) : Result := .next (s.returns (.packet rxNew0))

/-- RX_NEW1 (R127). -/
def execRxNew1 (a64 : Word64) (s : State) : Result := .next (s.returns (.packet (rxNew1 a64)))

/-- RX_NEW2 (R128). -/
def execRxNew2 (a64 : Word64) (a16 : Word16) (s : State) : Result :=
  .next (s.returns (.packet (rxNew2 a64 a16)))

/-- FRAME_LENGTH (R129). -/
def execFrameLength (f : Frame) (s : State) : Result :=
  if frameForm s.params.cap f then .next (s.returns (.u16 (frameLength f)))
  else .refused (.operandForm "FRAME_LENGTH")

/-- FRAME_CHECKSUM (R130). -/
def execFrameChecksum (f : Frame) (s : State) : Result :=
  if frameForm s.params.cap f then .next (s.returns (.u8 (frameChecksum f)))
  else .refused (.operandForm "FRAME_CHECKSUM")

/-- SERIALIZE_TX (R131). -/
def execSerializeTx (q : TxRequest) (s : State) : Result :=
  if txForm s.params.cap q then .next (s.returns (.bytes (serializeTx q)))
  else .refused (.operandForm "SERIALIZE_TX")

/-- SERIALIZE_RX (R132). -/
def execSerializeRx (f : RxFrame) (s : State) : Result :=
  if rxForm s.params.cap f then .next (s.returns (.bytes (serializeRx f)))
  else .refused (.operandForm "SERIALIZE_RX")

/-- HEX_FRAME (R133). -/
def execHexFrame (f : Frame) (mode : HexMode) (s : State) : Result :=
  if frameForm s.params.cap f then .next (s.returns (.text (hexFrame f mode)))
  else .refused (.operandForm "HEX_FRAME")

end Sys2Proof.Machine
end

