-- ==== Sys2Proof/Machine/Control.lean ====
section
/-! DEFINITION. The host commands and the transmit events (spec/43_tx_and_control.md R180 to R184). -/

namespace Sys2Proof.Machine

open Sys2Proof

/-- CONNECT (R180, R211, R212). -/
def execConnect (openOk : Bool) (s : State) : Result :=
  if s.connected then .next (s.returns (.status .alreadyConnected))
  else if openOk then .next (s.clearParser.returns (.status .ok))
  else .next (s.returns (.status .connectionError))

/-- STOP (R182). -/
def execStop (s : State) : Result :=
  if s.connected then .next (s.shutDown.returns (.status .ok)) else .next (s.returns (.status .ok))

/-- SEND (R181, R213, R215); a request outside its form is refused (R82). -/
def execSend (q : TxRequest) (s : State) : Result :=
  if txForm s.params.cap q then
    if s.connected then
      if s.queueFull then .next (s.returns (.status .queueFull))
      else .next ((s.enqueue q (serializeTx q)).returns (.status .ok))
    else .next (s.returns (.status .notConnected))
  else .refused (.operandForm "SEND")

/-- TX_BYTE (R183): takes the next byte of the job in flight, or starts the next job; where there is
neither it does not occur (log 7). -/
def execTxByte (s : State) : Result :=
  match s.nextWork with
  | none => .refused (.notEnabled "TX_BYTE")
  | some (w, queue) =>
    match memRead w.bytes w.idx 1 with
    | [b] =>
      let s' := (s.withQueue queue).out b
      if w.idx + 1 = w.bytes.length then .next (s'.endJob w.req .ok)
      else .next { s' with txCur := some { w with idx := w.idx + 1 } }
    | _ => .fault .noJobByte

/-- TX_ERROR (R184, R217): the job in flight, or the next one, ends; where there is neither it does not
occur (log 7). -/
def execTxError (s : State) : Result :=
  match s.nextWork with
  | none => .refused (.notEnabled "TX_ERROR")
  | some (w, queue) => .next ((s.withQueue queue).endJob w.req .transportWrite)

end Sys2Proof.Machine
end

