-- ==== Sys2Proof/Machine/Flags.lean ====
section
/-! DEFINITION. The block has no flags (spec/10_state.md R36): status codes and events carry what flags
would. Here are the numeric codes and classes of the errors (spec/60_exceptions.md R210) and the
ordered decode tests of a received frame (spec/42_rx_parser.md R157, R225). -/

namespace Sys2Proof.Machine

open Sys2Proof

/-- The numeric code of an error (R210). -/
def ErrCode.code (e : ErrCode) : Nat :=
  match e with
  | .ok => 0
  | .connectionError => 1
  | .alreadyConnected => 2
  | .notConnected => 3
  | .payloadTooLarge => 4
  | .queueFull => 5
  | .transportRead => 6
  | .transportWrite => 7
  | .readTimeout => 8
  | .zeroLength => 9
  | .checksumMismatch => 10
  | .unknownType => 11
  | .shortFrame => 12
  | .oversize => 13

/-- The class column of R210. -/
inductive ErrClass where
  | none
  | connection
  | callerFacing
  | payload
  | transport
  | decode
  deriving DecidableEq, Repr

/-- The class of an error (R210). -/
def ErrCode.errClass (e : ErrCode) : ErrClass :=
  match e with
  | .ok => .none
  | .connectionError => .connection
  | .alreadyConnected => .connection
  | .notConnected => .callerFacing
  | .payloadTooLarge => .payload
  | .queueFull => .callerFacing
  | .transportRead => .transport
  | .transportWrite => .transport
  | .readTimeout => .transport
  | .zeroLength => .decode
  | .checksumMismatch => .decode
  | .unknownType => .decode
  | .shortFrame => .decode
  | .oversize => .decode

/-- The four tests of DECODE_RX in their order (R157, R225): the first that fails names the error;
`ok` when all pass. `len` is at least 1 here. -/
def decodeVerdict (p : Params) (t : Byte) (len : Word16) (sum ck : Byte) : ErrCode :=
  if p.verifyChecksum = true ∧ sum + ck ≠ 0xFF then .checksumMismatch
  else if t ≠ Config.typeRx then .unknownType
  else if len.toNat - 1 < Config.rxFixed then .shortFrame
  else if p.cap < len.toNat - 1 - Config.rxFixed then .oversize
  else .ok

end Sys2Proof.Machine
end

