-- ==== Sys2Proof/Machine/Parser.lean ====
section
/-! DEFINITION. The receive side (spec/42_rx_parser.md): RX_BYTE by parser state (R150 to R156), DECODE_RX
(R157), RX_ERROR (R160), RX_TIMEOUT (R161), and the table's wire rows, which are received bytes
(spec/30_encoding.md R71, R78; log 3). -/

namespace Sys2Proof.Machine

open Sys2Proof

/-- The payload of a decoded record: `data`, or, where that is more than a record's data may hold (R32), the first
`cap` bytes of the open value `free` up to its first 0x00 (log 8). -/
def payloadOr (cap : Nat) (data free : Bytes) : Bytes := if data.length ≤ cap then data else (takeZ free).take cap

/-- The record that DECODE_RX reads once its tests have passed (R157): each field at its place in the body, and a
field that the body does not hold, or whose value is no `data` of R32, at its open value (log 8). -/
def readRecord (p : Params) (t : Byte) (len : Word16) (body : Bytes) (sum ck : Byte) : RxRecord :=
  let free := Config.unstatedFields t len body sum ck
  { src64 := (dec64 (memRead body 0 8)).getD free.1
    src16 := (dec16 (memRead body 8 2)).getD free.2.1
    options := body[10]?.getD free.2.2.1
    data := payloadOr p.cap (takeZ (memRead body 11 (body.length - 11))) free.2.2.2
    rxLength := len
    rxChecksum := ck }

/-- `DECODE_RX` (R157): `decoded r` is `Ok r`, `err e` is `Err e`. None where `L` = 0, which is outside the operand's
stated form (`L ≥ 1`). -/
def decodeRx (p : Params) (t : Byte) (len : Word16) (body : Bytes) (sum ck : Byte) : Option Value :=
  if len = 0 then none
  else
    match decodeVerdict p t len sum ck with
    | .ok => some (.decoded (readRecord p t len body sum ck))
    | e => some (.err e)

/-- The event of a dispatched frame (R156): `EvRxFrame r` for `Ok r`, `EvRxDrop e` for `Err e`; none
where DECODE_RX has no value. -/
def dispatchEvent (v : Option Value) : Option Event :=
  match v with
  | some (.decoded r) => some (.rxFrame r)
  | some (.err e) => some (.rxDrop e)
  | _ => none

/-- RX_BYTE in `AwaitDelim` (R151). -/
def rxAwaitDelim (b : Byte) (s : State) : State := if b = Config.delim then s.goto .lenHi else s

/-- RX_BYTE in `LenHi` (R152). -/
def rxLenHi (b : Byte) (s : State) : State := { s with rxLen := b.setWidth 16 <<< 8, rxState := .lenLo }

/-- RX_BYTE in `LenLo` (R153). -/
def rxLenLo (b : Byte) (s : State) : State := { s with rxLen := s.rxLen ||| b.setWidth 16, rxState := .type }

/-- RX_BYTE in `Type` (R154, R219). -/
def rxType (b : Byte) (s : State) : State :=
  let s' := { s with rxType := b, rxSum := b, rxBody := [], rxCount := 0 }
  if s.rxLen = 0 then s'.endFrame (.rxDrop .zeroLength)
  else if s.rxLen = 1 then s'.goto .cksum
  else s'.goto .body

/-- RX_BYTE in `Body` (R155). -/
def rxBodyByte (b : Byte) (s : State) : State :=
  let s' := { s with
    rxBody := memAppend s.rxBody s.params.rxBodyCap s.rxCount.toNat b
    rxCount := s.rxCount + 1
    rxSum := s.rxSum + b }
  if s.rxCount.toNat + 1 = s.rxLen.toNat - 1 then s'.goto .cksum else s'

/-- RX_BYTE in `Cksum` (R156): dispatch, one event, back to the delimiter search. -/
def rxCksum (b : Byte) (s : State) : Result :=
  match dispatchEvent (decodeRx s.params s.rxType s.rxLen s.rxBody s.rxSum b) with
  | some ev => .next (s.endFrame ev)
  | none => .fault .noDecodeOperands

/-- The receipt of one byte, by the parser's state (R150). A byte that arrives in `Idle` is lost. -/
def receive (b : Byte) (s : State) : Result :=
  match s.rxState with
  | .idle => .next s
  | .awaitDelim => .next (rxAwaitDelim b s)
  | .lenHi => .next (rxLenHi b s)
  | .lenLo => .next (rxLenLo b s)
  | .type => .next (rxType b s)
  | .body => .next (rxBodyByte b s)
  | .cksum => rxCksum b s

/-- RX_BYTE (R150). -/
def execRxByte (b : Byte) (s : State) : Result := receive b s

/-- RX_ERROR (R160, R216). -/
def execRxError (s : State) : Result :=
  if s.rxState = .idle then .next s else .next (s.endFrame (.error .transportRead))

/-- RX_TIMEOUT (R161, R218); where it is not enabled it does not occur (log 7). -/
def execRxTimeout (s : State) : Result :=
  if s.partialFrame && s.params.readTimeoutEn then .next (s.endFrame (.error .readTimeout))
  else .refused (.notEnabled "RX_TIMEOUT")

/-- DECODE_RX (R157); a length field of 0 is refused (R82). -/
def execDecodeRx (t : Byte) (len : Word16) (body : Bytes) (sum ck : Byte) (s : State) : Result :=
  match decodeRx s.params t len body sum ck with
  | some v => .next (s.returns v)
  | none => .refused (.operandForm "DECODE_RX")

/-- FRAME_DELIMITER (R71, R151): the byte 0x7E is received. -/
def execFrameDelimiter (s : State) : Result := receive Config.delim s

/-- RX_PACKET (R78, R154): the frame type 0x90 is received. -/
def execRxPacket (s : State) : Result := receive Config.typeRx s

/-- TX_REQUEST (R78, R154): the frame type 0x10 is received; the frame is dropped at dispatch (R157). -/
def execTxRequest (s : State) : Result := receive Config.typeTx s

/-- UNRECOGNIZED_TYPE (R78, R154): any other frame type is received; the frame is dropped at dispatch
(R157). -/
def execUnrecognizedType (t : Byte) (s : State) : Result := receive t s

end Sys2Proof.Machine
end

