-- ==== Sys2Proof/Machine/Dispatch.lean ====
section
/-! DEFINITION. One arm per operation (spec/30_encoding.md R81) and per wire row (R71, R78). -/

namespace Sys2Proof.Machine

open Sys2Proof

def exec (i : Instr) (s : State) : Host.Outcome State Fault Refusal :=
  match i with
  | .connect openOk => Sys2Proof.Machine.execConnect openOk s
  | .stop => Sys2Proof.Machine.execStop s
  | .send q => Sys2Proof.Machine.execSend q s
  | .rxByte b => Sys2Proof.Machine.execRxByte b s
  | .rxError => Sys2Proof.Machine.execRxError s
  | .rxTimeout => Sys2Proof.Machine.execRxTimeout s
  | .txByte => Sys2Proof.Machine.execTxByte s
  | .txError => Sys2Proof.Machine.execTxError s
  | .beEnc8 v => Sys2Proof.Machine.execBeEnc8 v s
  | .beEnc16 v => Sys2Proof.Machine.execBeEnc16 v s
  | .beEnc64 v => Sys2Proof.Machine.execBeEnc64 v s
  | .beDec16 bs => Sys2Proof.Machine.execBeDec16 bs s
  | .beDec64 bs => Sys2Proof.Machine.execBeDec64 bs s
  | .byteSum bs => Sys2Proof.Machine.execByteSum bs s
  | .checksum bs => Sys2Proof.Machine.execChecksum bs s
  | .hexText bs sep trail => Sys2Proof.Machine.execHexText bs sep trail s
  | .txNew0 => Sys2Proof.Machine.execTxNew0 s
  | .txNew1 a64 => Sys2Proof.Machine.execTxNew1 a64 s
  | .txNew2 a64 a16 => Sys2Proof.Machine.execTxNew2 a64 a16 s
  | .txSetData q bs => Sys2Proof.Machine.execTxSetData q bs s
  | .rxNew0 => Sys2Proof.Machine.execRxNew0 s
  | .rxNew1 a64 => Sys2Proof.Machine.execRxNew1 a64 s
  | .rxNew2 a64 a16 => Sys2Proof.Machine.execRxNew2 a64 a16 s
  | .frameLength f => Sys2Proof.Machine.execFrameLength f s
  | .frameChecksum f => Sys2Proof.Machine.execFrameChecksum f s
  | .serializeTx q => Sys2Proof.Machine.execSerializeTx q s
  | .serializeRx f => Sys2Proof.Machine.execSerializeRx f s
  | .hexFrame f mode => Sys2Proof.Machine.execHexFrame f mode s
  | .decodeRx t len body sum ck => Sys2Proof.Machine.execDecodeRx t len body sum ck s
  | .frameDelimiter => Sys2Proof.Machine.execFrameDelimiter s
  | .rxPacket => Sys2Proof.Machine.execRxPacket s
  | .txRequest => Sys2Proof.Machine.execTxRequest s
  | .unrecognizedType t => Sys2Proof.Machine.execUnrecognizedType t s

end Sys2Proof.Machine
end

