-- ==== Sys2Proof/Decode.lean ====
section
/-! DEFINITION. The command encoding (spec/30_encoding.md R81, R82) and the frame-type discriminator on
the wire (R71, R78): a decoder total on any input event, the encoder, and the opcode table's view of the
decoder. R81 gives a command its 8-bit code and its operand record; the bytes of an operand are this
model's DESIGN CHOICE (log 2): integers big-endian as everywhere in the block (R50), a Bool 00 or 01, a
sequence of fixed length as its bytes, a sequence of any length as 01 and the byte for each element and
then 00, a record field by field, a Frame as a tag (00 Rx, 01 Tx) and the record. -/

namespace Sys2Proof

/-- Why an input event is no operation. -/
inductive DecodeError where
  /-- The code is not in the table of R81. -/
  | unassigned (op : Byte)
  /-- The operand bytes are not those of one operand record of the code (log 2). -/
  | malformed
  deriving DecidableEq, Repr

/-- A reader takes a value from the front of the bytes and gives the rest. -/
abbrev Reader (α : Type) := Bytes → Option (α × Bytes)

/-- A u8 operand. -/
def readU8 : Reader Byte
  | b :: r => some (b, r)
  | [] => none

/-- A u16 operand, high byte first. -/
def readU16 : Reader Word16
  | a :: b :: r => some (a ++ b, r)
  | _ => none

/-- A u64 operand, high byte first. -/
def readU64 : Reader Word64
  | a :: b :: c :: d :: e :: f :: g :: h :: r => some (a ++ b ++ c ++ d ++ e ++ f ++ g ++ h, r)
  | _ => none

/-- A Bool operand: 00 or 01. -/
def readBool : Reader Bool
  | b :: r => if b = 0 then some (false, r) else if b = 1 then some (true, r) else none
  | [] => none

/-- A sequence operand of any length: 01 and a byte for each element, then 00. -/
def readSeq : Reader Bytes
  | [] => none
  | [t] => if t = 0 then some ([], []) else none
  | t :: b :: r =>
    if t = 0 then some ([], b :: r)
    else if t = 1 then (readSeq r).map fun x => (b :: x.1, x.2)
    else none

/-- A sequence operand of the fixed length `n`. -/
def readFixed (n : Nat) : Reader Bytes := fun bs =>
  if bs.length < n then none else some (bs.take n, bs.drop n)

/-- A TxRequest operand, its fields in the order of R33. -/
def readTx : Reader TxRequest := fun bs => do
  let (frameId, bs) ← readU8 bs
  let (dst64, bs) ← readU64 bs
  let (dst16, bs) ← readU16 bs
  let (radius, bs) ← readU8 bs
  let (options, bs) ← readU8 bs
  let (data, bs) ← readSeq bs
  return (TxRequest.mk frameId dst64 dst16 radius options data, bs)

/-- An RxFrame operand, its fields in the order of R32. -/
def readRx : Reader RxFrame := fun bs => do
  let (src64, bs) ← readU64 bs
  let (src16, bs) ← readU16 bs
  let (options, bs) ← readU8 bs
  let (data, bs) ← readSeq bs
  return (RxFrame.mk src64 src16 options data, bs)

/-- A Frame operand: its tag, then its record (R121). -/
def readFrame : Reader Frame := fun bs => do
  let (isTx, bs) ← readBool bs
  if isTx then
    let (q, bs) ← readTx bs
    return (Frame.tx q, bs)
  else
    let (f, bs) ← readRx bs
    return (Frame.rx f, bs)

/-- A HexMode operand: 00 NONE, 01 BEFORE_CK, 02 ALL (R82). -/
def readMode : Reader HexMode
  | b :: r =>
    if b = 0 then some (.none, r) else if b = 1 then some (.beforeCk, r)
    else if b = 2 then some (.all, r) else none
  | [] => none

/-- The operand record of the code `op` (the table of R81). The outer Option is none for a code that
is not assigned. -/
def operandReader (op : Byte) : Option (Reader Instr) :=
  match op.toNat with
  | 0x01 => some fun bs => do let (x, bs) ← readBool bs; return (.connect x, bs)
  | 0x02 => some fun bs => some (.stop, bs)
  | 0x03 => some fun bs => do let (q, bs) ← readTx bs; return (.send q, bs)
  | 0x04 => some fun bs => do let (b, bs) ← readU8 bs; return (.rxByte b, bs)
  | 0x05 => some fun bs => some (.rxError, bs)
  | 0x06 => some fun bs => some (.rxTimeout, bs)
  | 0x07 => some fun bs => some (.txByte, bs)
  | 0x08 => some fun bs => some (.txError, bs)
  | 0x10 => some fun bs => do let (v, bs) ← readU8 bs; return (.beEnc8 v, bs)
  | 0x11 => some fun bs => do let (v, bs) ← readU16 bs; return (.beEnc16 v, bs)
  | 0x12 => some fun bs => do let (v, bs) ← readU64 bs; return (.beEnc64 v, bs)
  | 0x13 => some fun bs => do let (x, bs) ← readFixed 2 bs; return (.beDec16 x, bs)
  | 0x14 => some fun bs => do let (x, bs) ← readFixed 8 bs; return (.beDec64 x, bs)
  | 0x15 => some fun bs => do let (x, bs) ← readSeq bs; return (.byteSum x, bs)
  | 0x16 => some fun bs => do let (x, bs) ← readSeq bs; return (.checksum x, bs)
  | 0x17 => some fun bs => do
      let (x, bs) ← readSeq bs
      let (sep, bs) ← readBool bs
      let (trail, bs) ← readBool bs
      return (.hexText x sep trail, bs)
  | 0x18 => some fun bs => some (.txNew0, bs)
  | 0x19 => some fun bs => do let (a, bs) ← readU64 bs; return (.txNew1 a, bs)
  | 0x1A => some fun bs => do
      let (a, bs) ← readU64 bs
      let (c, bs) ← readU16 bs
      return (.txNew2 a c, bs)
  | 0x1B => some fun bs => do
      let (q, bs) ← readTx bs
      let (x, bs) ← readSeq bs
      return (.txSetData q x, bs)
  | 0x1C => some fun bs => some (.rxNew0, bs)
  | 0x1D => some fun bs => do let (a, bs) ← readU64 bs; return (.rxNew1 a, bs)
  | 0x1E => some fun bs => do
      let (a, bs) ← readU64 bs
      let (c, bs) ← readU16 bs
      return (.rxNew2 a c, bs)
  | 0x1F => some fun bs => do let (f, bs) ← readFrame bs; return (.frameLength f, bs)
  | 0x20 => some fun bs => do let (f, bs) ← readFrame bs; return (.frameChecksum f, bs)
  | 0x21 => some fun bs => do let (q, bs) ← readTx bs; return (.serializeTx q, bs)
  | 0x22 => some fun bs => do let (f, bs) ← readRx bs; return (.serializeRx f, bs)
  | 0x23 => some fun bs => do
      let (f, bs) ← readFrame bs
      let (m, bs) ← readMode bs
      return (.hexFrame f m, bs)
  | 0x24 => some fun bs => do
      let (t, bs) ← readU8 bs
      let (len, bs) ← readU16 bs
      let (body, bs) ← readSeq bs
      let (sum, bs) ← readU8 bs
      let (ck, bs) ← readU8 bs
      return (.decodeRx t len body sum ck, bs)
  | _ => none

/-- The decoder of a command word (R81): the code, then exactly its operand record. -/
def decodeCommand (w : Bytes) : Except DecodeError Instr :=
  match w with
  | [] => .error .malformed
  | op :: operands =>
    match operandReader op with
    | none => .error (.unassigned op)
    | some read =>
      match read operands with
      | some (i, []) => .ok i
      | _ => .error .malformed

/-- The name of a byte on the receive line by its place in a frame: the delimiter (R71), the
frame-type rows in the table's order (R78), and elsewhere a plain RX_BYTE (R150). -/
def decodeWire (place : WirePlace) (b : Byte) : Instr :=
  match place with
  | .delimiter => if b = Config.delim then .frameDelimiter else .rxByte b
  | .frameType =>
    if b = Config.typeRx then .rxPacket
    else if b = Config.typeTx then .txRequest
    else .unrecognizedType b
  | .elsewhere => .rxByte b

/-- The decoder, total on any input event at any place in a frame. -/
def decode (place : WirePlace) (ev : InEvent) : Except DecodeError Instr :=
  match ev with
  | .command w => decodeCommand w
  | .wire b => .ok (decodeWire place b)

/-- A u16 operand, high byte first. -/
def putU16 (v : Word16) : Bytes := [v.extractLsb' 8 8, v.extractLsb' 0 8]

/-- A u64 operand, high byte first. -/
def putU64 (v : Word64) : Bytes :=
  [v.extractLsb' 56 8, v.extractLsb' 48 8, v.extractLsb' 40 8, v.extractLsb' 32 8,
   v.extractLsb' 24 8, v.extractLsb' 16 8, v.extractLsb' 8 8, v.extractLsb' 0 8]

/-- A Bool operand. -/
def putBool (x : Bool) : Bytes := if x then [1] else [0]

/-- A sequence operand of any length. -/
def putSeq (bs : Bytes) : Bytes :=
  match bs with
  | [] => [0]
  | b :: r => 1 :: b :: putSeq r

/-- A TxRequest operand. -/
def putTx (q : TxRequest) : Bytes :=
  q.frameId :: (putU64 q.dst64 ++ (putU16 q.dst16 ++ (q.radius :: q.options :: putSeq q.data)))

/-- An RxFrame operand. -/
def putRx (f : RxFrame) : Bytes := putU64 f.src64 ++ (putU16 f.src16 ++ (f.options :: putSeq f.data))

/-- A Frame operand. -/
def putFrame (f : Frame) : Bytes :=
  match f with
  | .rx f => 0 :: putRx f
  | .tx q => 1 :: putTx q

/-- A HexMode operand. -/
def putMode (m : HexMode) : Bytes :=
  match m with
  | .none => [0]
  | .beforeCk => [1]
  | .all => [2]

/-- The encoder: the command word of an operation (R81), or the byte on the line of a wire row. -/
def encode (i : Instr) : InEvent :=
  match i with
  | .connect x => .command (0x01 :: putBool x)
  | .stop => .command [0x02]
  | .send q => .command (0x03 :: putTx q)
  | .rxByte b => .command [0x04, b]
  | .rxError => .command [0x05]
  | .rxTimeout => .command [0x06]
  | .txByte => .command [0x07]
  | .txError => .command [0x08]
  | .beEnc8 v => .command [0x10, v]
  | .beEnc16 v => .command (0x11 :: putU16 v)
  | .beEnc64 v => .command (0x12 :: putU64 v)
  | .beDec16 bs => .command (0x13 :: bs)
  | .beDec64 bs => .command (0x14 :: bs)
  | .byteSum bs => .command (0x15 :: putSeq bs)
  | .checksum bs => .command (0x16 :: putSeq bs)
  | .hexText bs sep trail => .command (0x17 :: (putSeq bs ++ (putBool sep ++ putBool trail)))
  | .txNew0 => .command [0x18]
  | .txNew1 a => .command (0x19 :: putU64 a)
  | .txNew2 a c => .command (0x1A :: (putU64 a ++ putU16 c))
  | .txSetData q bs => .command (0x1B :: (putTx q ++ putSeq bs))
  | .rxNew0 => .command [0x1C]
  | .rxNew1 a => .command (0x1D :: putU64 a)
  | .rxNew2 a c => .command (0x1E :: (putU64 a ++ putU16 c))
  | .frameLength f => .command (0x1F :: putFrame f)
  | .frameChecksum f => .command (0x20 :: putFrame f)
  | .serializeTx q => .command (0x21 :: putTx q)
  | .serializeRx f => .command (0x22 :: putRx f)
  | .hexFrame f m => .command (0x23 :: (putFrame f ++ putMode m))
  | .decodeRx t len body sum ck => .command (0x24 :: t :: (putU16 len ++ (putSeq body ++ [sum, ck])))
  | .frameDelimiter => .wire Config.delim
  | .rxPacket => .wire Config.typeRx
  | .txRequest => .wire Config.typeTx
  | .unrecognizedType t => .wire t

/-- The place in a frame at which the decoder reads a wire row as that row. -/
def Instr.place (i : Instr) : WirePlace :=
  match i with
  | .frameDelimiter => .delimiter
  | .rxPacket => .frameType
  | .txRequest => .frameType
  | .unrecognizedType _ => .frameType
  | .connect _ | .stop | .send _ | .rxByte _ | .rxError | .rxTimeout | .txByte | .txError | .beEnc8 _
  | .beEnc16 _ | .beEnc64 _ | .beDec16 _ | .beDec64 _ | .byteSum _ | .checksum _ | .hexText _ _ _ | .txNew0
  | .txNew1 _ | .txNew2 _ _ | .txSetData _ _ | .rxNew0 | .rxNew1 _ | .rxNew2 _ _ | .frameLength _
  | .frameChecksum _ | .serializeTx _ | .serializeRx _ | .hexFrame _ _ | .decodeRx _ _ _ _ _ => .elsewhere

/-- The first `n` bytes of the number `w`, least significant first: the table numbers an instruction's
first byte in bits 7:0. -/
def wordBytes (n w : Nat) : Bytes :=
  match n with
  | 0 => []
  | n + 1 => BitVec.ofNat 8 w :: wordBytes n (w / 256)

/-- The word followed by as many zero operand bytes as its code needs, at most `fuel`; none where no such
word decodes. -/
def zeroExtended (fuel : Nat) (w : Bytes) : Option Bytes :=
  match decodeCommand w with
  | .ok _ => some w
  | .error _ =>
    match fuel with
    | 0 => none
    | fuel + 1 => zeroExtended fuel (w ++ [0])

/-- The input event that a row of spec/opcode_table.json stands for, with the place at which it is read, in the
table's order: a command code (with operands of zeros above the table's bits), the delimiter, and last a
frame type (log 3). 16 zero bytes are more than any operand record of zeros takes. -/
def tableEvent (nbits w : Nat) : Option (WirePlace × InEvent) :=
  match wordBytes (nbits / 8) w with
  | [] => none
  | op :: operands =>
    match operandReader op with
    | some _ => (zeroExtended 16 (op :: operands)).map fun x => (.elsewhere, .command x)
    | none => some (if op = Config.delim then .delimiter else .frameType, .wire op)

/-- The instruction the decoder reads from a word of the opcode table. -/
def decodeTableWord (nbits w : Nat) : Option Instr :=
  match tableEvent nbits w with
  | none => none
  | some (place, ev) => (decode place ev).toOption

end Sys2Proof
end

