-- ==== Sys2Proof/Machine/Fetch.lean ====
section
/-! DEFINITION. Taking the next input event (spec/00_scope.md R5): one event a step, in the order the environment
gives (spec/20_memory.md R62). -/

namespace Sys2Proof.Machine

open Sys2Proof

/-- The state in which the taken event is executed: the event is gone from the input, and nothing has
been returned yet (logs 1, 6). -/
def State.take (s : State) (rest : List InEvent) : State := { s with input := rest, ret := none }

/-- What the next input event is, and the events after it; the refusal where there is none (R5), or
where it names no operation (R81) or no operand record (R82). -/
def fetch (s : State) : Except Refusal (Instr × List InEvent) :=
  match s.input with
  | [] => .error .noInput
  | ev :: rest =>
    match decode s.rxState.wirePlace ev with
    | .ok i => .ok (i, rest)
    | .error (.unassigned op) => .error (.unassignedCode op)
    | .error .malformed => .error .malformedCommand

/-- The parser state that stands at a place of the table's wire rows. -/
def WirePlace.toRxState (s : State) (place : WirePlace) : RxState :=
  match place with
  | .delimiter => .awaitDelim
  | .frameType => .type
  | .elsewhere => s.rxState

/-- `s` with the table's word as its next input event, and, for a wire row, the parser at the row's
place in a frame. -/
def State.withTableEvent (s : State) (nbits w : Nat) : State :=
  match tableEvent nbits w with
  | none => s
  | some (place, ev) => { s with input := ev :: s.input, rxState := WirePlace.toRxState s place }

end Sys2Proof.Machine
end

