-- ==== Sys2Proof/Machine/Step.lean ====
section
/-! DEFINITION. One step: take the next input event and execute it (spec/00_scope.md R5). -/

namespace Sys2Proof.Machine

open Sys2Proof

/-- One step of the block. Each step consumes one input event; the value returned, the events appended
and the byte transmitted stand in the next state. -/
def step (s : State) : Host.Outcome State Fault Refusal :=
  match fetch s with
  | .ok (i, rest) => exec i (s.take rest)
  | .error r => .refused r

/-- `s` with the opcode table's word where the next step takes its event. -/
def State.withFetchWord (s : State) (nbits w : Nat) : State := s.withTableEvent nbits w

end Sys2Proof.Machine
end

