-- ==== Sys2Proof/Machine/Script.lean ====
section
/-! DEFINITION. Scripts: the pseudo-operations and their expansions (spec/30_encoding.md R84), the run of a list of
operations, and a reader of the one-line script notation (R83; log 13). -/

namespace Sys2Proof.Machine

open Sys2Proof

/-- A line of a script: an operation of R81, or a pseudo-operation of R84. -/
inductive ScriptOp where
  | op (i : Instr)
  /-- `RXS b0 b1 ... bk` -/
  | rxs (bs : Bytes)
  /-- `SEND0 "text"` -/
  | send0 (text : Bytes)
  /-- `SEND1 a64 "text"` -/
  | send1 (a64 : Word64) (text : Bytes)
  /-- `SEND2 a64 a16 "text"` -/
  | send2 (a64 : Word64) (a16 : Word16) (text : Bytes)
  /-- `DRAIN` -/
  | drain
  deriving DecidableEq, Repr

/-- One operation as a step executes it: nothing has been returned yet. -/
def runOp (i : Instr) (s : State) : Result := exec i (s.take s.input)

/-- Operations one after another, stopping at the first that does not complete. -/
def runOps (ops : List Instr) (s : State) : Result :=
  match ops with
  | [] => .next s
  | i :: rest =>
    match runOp i s with
    | .next t => runOps rest t
    | .fault f => .fault f
    | .refused r => .refused r

/-- `RXS`: `RX_BYTE` for each byte in order (R84). -/
def rxs (bs : Bytes) (s : State) : Result := runOps (bs.map Instr.rxByte) s

/-- `SEND (TX_SET_DATA q text)`: the status `PayloadTooLarge` and no SEND where TX_SET_DATA fails (R84). -/
def sendText (q : TxRequest) (text : Bytes) (s : State) : Result :=
  match txSetData s.params.cap q text with
  | none => .next ((s.take s.input).returns (.status .payloadTooLarge))
  | some q' => runOp (.send q') s

/-- Something is in flight or queued: `tx_cur ≠ none` or `tx_queue ≠ []` (R84, R183). -/
def State.busy (s : State) : Bool := s.txCur.isSome || !s.txQueue.isEmpty

/-- The bytes of the job in flight that are not on the line yet, then those of the queued jobs. -/
def State.pending (s : State) : Bytes :=
  (match s.txCur with
   | some w => w.bytes.drop w.idx
   | none => []) ++ s.txQueue.flatMap TxJob.bytes

/-- `TX_BYTE` repeated while `busy`, at most `fuel` times. -/
def drainFor (fuel : Nat) (s : State) : Result :=
  match fuel with
  | 0 => .next s
  | fuel + 1 =>
    if s.busy then
      match runOp .txByte s with
      | .next t => drainFor fuel t
      | .fault f => .fault f
      | .refused r => .refused r
    else .next s

/-- `DRAIN` (R84): each TX_BYTE takes a pending byte, so one more than there are is enough. -/
def drain (s : State) : Result := drainFor (s.pending.length + 1) s

/-- One script line. -/
def runLine (l : ScriptOp) (s : State) : Result :=
  match l with
  | .op i => runOp i s
  | .rxs bs => rxs bs s
  | .send0 text => sendText txNew0 text s
  | .send1 a64 text => sendText (txNew1 a64) text s
  | .send2 a64 a16 text => sendText (txNew2 a64 a16) text s
  | .drain => drain s

/-- A token of the script notation (R83). -/
inductive Token where
  | word (cs : List Char)
  | quoted (cs : List Char)
  | mark (c : Char)
  deriving DecidableEq, Repr

/-- The characters that stand for themselves: parentheses, brackets, braces, comma and equals sign. -/
def isMark (c : Char) : Bool := [40, 41, 44, 61, 91, 93, 123, 125].contains c.toNat

/-- The word collected so far, if any. -/
def flush (acc : List Char) : List Token := if acc.isEmpty then [] else [.word acc.reverse]

/-- The characters of quoted text: a backslash and a 0 stand for the character of code 0, as R125's example and the vector
F5 write it, and every other character for itself. R83 names no escape: DESIGN CHOICE (log 18). -/
def unescape (cs : List Char) : List Char :=
  match cs with
  | '\\' :: '0' :: r => Char.ofNat 0 :: unescape r
  | c :: r => c :: unescape r
  | [] => []

/-- Split a line into tokens; a semicolon starts a comment (R83). `inText` holds between double quotes
(character 34). -/
def lex (inText : Bool) (acc : List Char) (cs : List Char) : List Token :=
  match cs with
  | [] => if inText then [.quoted (unescape acc.reverse)] else flush acc
  | c :: r =>
    if inText then
      if c.toNat = 34 then .quoted (unescape acc.reverse) :: lex false [] r else lex true (c :: acc) r
    else if c = ';' then flush acc
    else if c.toNat = 34 then flush acc ++ lex true [] r
    else if c = ' ' then flush acc ++ lex false [] r
    else if isMark c then flush acc ++ .mark c :: lex false [] r
    else lex false (c :: acc) r

/-- The value of a hexadecimal digit, uppercase as R108 spells them. -/
def hexDigit (c : Char) : Option Nat :=
  if '0' ≤ c ∧ c ≤ '9' then some (c.toNat - 48)
  else if 'A' ≤ c ∧ c ≤ 'F' then some (c.toNat - 55)
  else none

/-- The value of a string of hexadecimal digits, continuing from `acc`. -/
def hexNumber (acc : Nat) (cs : List Char) : Option Nat :=
  match cs with
  | [] => some acc
  | c :: r =>
    match hexDigit c with
    | some d => hexNumber (acc * 16 + d) r
    | none => none

/-- An integer: `0x` and hexadecimal digits (R83), or a plain `0`. -/
def hexInteger (cs : List Char) : Option Nat :=
  match cs with
  | '0' :: 'x' :: d :: r => hexNumber 0 (d :: r)
  | ['0'] => some 0
  | _ => none

/-- A byte: a hexadecimal pair without a mark before it (R83). -/
def hexPair (cs : List Char) : Option Byte :=
  match cs with
  | [a, b] => (hexNumber 0 [a, b]).map (BitVec.ofNat 8)
  | _ => none

/-- Text as the bytes of its characters (R16). -/
def textBytes (cs : List Char) : Bytes := cs.map fun c => BitVec.ofNat 8 c.toNat

/-- A reader of script tokens. -/
abbrev Scan (α : Type) := List Token → Option (α × List Token)

/-- The mark `n` (its character code). -/
def scanMark (n : Nat) : Scan Unit
  | .mark c :: r => if c.toNat = n then some ((), r) else none
  | _ => none

/-- An integer operand of width `w`. -/
def scanInt (w : Nat) : Scan (BitVec w)
  | .word cs :: r =>
    match hexInteger cs with
    | some n => if n < 2 ^ w then some (BitVec.ofNat w n, r) else none
    | none => none
  | _ => none

/-- A Bool operand. -/
def scanBool : Scan Bool
  | .word cs :: r =>
    if cs = "true".toList then some (true, r) else if cs = "false".toList then some (false, r) else none
  | _ => none

/-- The longest run of byte pairs. -/
def scanPairs : List Token → Bytes × List Token
  | .word cs :: r =>
    match hexPair cs with
    | some b => let x := scanPairs r; (b :: x.1, x.2)
    | none => ([], .word cs :: r)
  | ts => ([], ts)

/-- A byte sequence: `[]`, text in double quotes, byte pairs, or byte pairs in parentheses. -/
def scanBytes : Scan Bytes
  | .mark c :: r =>
    if c.toNat = 91 then (scanMark 93 r).map fun x => ([], x.2)
    else if c.toNat = 40 then (scanMark 41 (scanPairs r).2).map fun x => ((scanPairs r).1, x.2)
    else none
  | .quoted cs :: r => some (textBytes cs, r)
  | .word cs :: r =>
    match hexPair cs with
    | some _ => some (scanPairs (.word cs :: r))
    | none => none
  | [] => none

/-- One byte pair, the operand of RX_BYTE. -/
def scanPair : Scan Byte
  | .word cs :: r => (hexPair cs).map fun b => (b, r)
  | _ => none

/-- One `field=value` of a TxRequest (R33). -/
def scanTxField (q : TxRequest) : Scan TxRequest
  | .word name :: r => do
    let (_, r) ← scanMark 61 r
    if name = "frame_id".toList then let (v, r) ← scanInt 8 r; return ({ q with frameId := v }, r)
    else if name = "dst64".toList then let (v, r) ← scanInt 64 r; return ({ q with dst64 := v }, r)
    else if name = "dst16".toList then let (v, r) ← scanInt 16 r; return ({ q with dst16 := v }, r)
    else if name = "radius".toList then let (v, r) ← scanInt 8 r; return ({ q with radius := v }, r)
    else if name = "options".toList then let (v, r) ← scanInt 8 r; return ({ q with options := v }, r)
    else if name = "data".toList then let (v, r) ← scanBytes r; return ({ q with data := v }, r)
    else none
  | _ => none

/-- One `field=value` of an RxFrame (R32). -/
def scanRxField (f : RxFrame) : Scan RxFrame
  | .word name :: r => do
    let (_, r) ← scanMark 61 r
    if name = "src64".toList then let (v, r) ← scanInt 64 r; return ({ f with src64 := v }, r)
    else if name = "src16".toList then let (v, r) ← scanInt 16 r; return ({ f with src16 := v }, r)
    else if name = "options".toList then let (v, r) ← scanInt 8 r; return ({ f with options := v }, r)
    else if name = "data".toList then let (v, r) ← scanBytes r; return ({ f with data := v }, r)
    else none
  | _ => none

/-- The fields of a record up to its closing brace, at most `fuel` of them. -/
def scanFields {α : Type} (field : α → Scan α) (fuel : Nat) (x : α) : Scan α := fun ts =>
  match scanMark 125 ts with
  | some (_, r) => some (x, r)
  | none =>
    match fuel with
    | 0 => none
    | fuel + 1 => do
      let (x, r) ← field x ts
      match scanMark 44 r with
      | some (_, r) => scanFields field fuel x r
      | none => scanFields field fuel x r

/-- A TxRequest literal; omitted fields take the constructor's defaults (R83, R122). -/
def scanTx : Scan TxRequest := fun ts => do
  let (_, r) ← scanMark 123 ts
  scanFields scanTxField 6 txNew0 r

/-- An RxFrame literal; omitted fields take the constructor's defaults (R83, R126). -/
def scanRx : Scan RxFrame := fun ts => do
  let (_, r) ← scanMark 123 ts
  scanFields scanRxField 4 rxNew0 r

/-- A frame literal: `Tx` or `Rx` and the record. -/
def scanFrame : Scan Frame
  | .word cs :: r =>
    if cs = "Tx".toList then (scanTx r).map fun x => (.tx x.1, x.2)
    else if cs = "Rx".toList then (scanRx r).map fun x => (.rx x.1, x.2)
    else none
  | _ => none

/-- A hex mode by its name (R82). -/
def scanMode : Scan HexMode
  | .word cs :: r =>
    if cs = "NONE".toList then some (.none, r)
    else if cs = "BEFORE_CK".toList then some (.beforeCk, r)
    else if cs = "ALL".toList then some (.all, r)
    else none
  | _ => none

/-- The operands of a mnemonic, in the order of R81 (R83), or of a pseudo-operation (R84). -/
def scanOperands (mnemonic : List Char) : Scan ScriptOp := fun ts => do
  if mnemonic = "CONNECT".toList then let (x, r) ← scanBool ts; return (.op (.connect x), r)
  else if mnemonic = "STOP".toList then return (.op .stop, ts)
  else if mnemonic = "SEND".toList then let (q, r) ← scanTx ts; return (.op (.send q), r)
  else if mnemonic = "RX_BYTE".toList then let (b, r) ← scanPair ts; return (.op (.rxByte b), r)
  else if mnemonic = "RX_ERROR".toList then return (.op .rxError, ts)
  else if mnemonic = "RX_TIMEOUT".toList then return (.op .rxTimeout, ts)
  else if mnemonic = "TX_BYTE".toList then return (.op .txByte, ts)
  else if mnemonic = "TX_ERROR".toList then return (.op .txError, ts)
  else if mnemonic = "BE_ENC8".toList then let (v, r) ← scanInt 8 ts; return (.op (.beEnc8 v), r)
  else if mnemonic = "BE_ENC16".toList then let (v, r) ← scanInt 16 ts; return (.op (.beEnc16 v), r)
  else if mnemonic = "BE_ENC64".toList then let (v, r) ← scanInt 64 ts; return (.op (.beEnc64 v), r)
  else if mnemonic = "BE_DEC16".toList then let (x, r) ← scanBytes ts; return (.op (.beDec16 x), r)
  else if mnemonic = "BE_DEC64".toList then let (x, r) ← scanBytes ts; return (.op (.beDec64 x), r)
  else if mnemonic = "BYTE_SUM".toList then let (x, r) ← scanBytes ts; return (.op (.byteSum x), r)
  else if mnemonic = "CHECKSUM".toList then let (x, r) ← scanBytes ts; return (.op (.checksum x), r)
  else if mnemonic = "HEX_TEXT".toList then
    let (x, r) ← scanBytes ts
    let (sep, r) ← scanBool r
    let (trail, r) ← scanBool r
    return (.op (.hexText x sep trail), r)
  else if mnemonic = "TX_NEW0".toList then return (.op .txNew0, ts)
  else if mnemonic = "TX_NEW1".toList then let (a, r) ← scanInt 64 ts; return (.op (.txNew1 a), r)
  else if mnemonic = "TX_NEW2".toList then
    let (a, r) ← scanInt 64 ts
    let (c, r) ← scanInt 16 r
    return (.op (.txNew2 a c), r)
  else if mnemonic = "TX_SET_DATA".toList then
    let (q, r) ← scanTx ts
    let (x, r) ← scanBytes r
    return (.op (.txSetData q x), r)
  else if mnemonic = "RX_NEW0".toList then return (.op .rxNew0, ts)
  else if mnemonic = "RX_NEW1".toList then let (a, r) ← scanInt 64 ts; return (.op (.rxNew1 a), r)
  else if mnemonic = "RX_NEW2".toList then
    let (a, r) ← scanInt 64 ts
    let (c, r) ← scanInt 16 r
    return (.op (.rxNew2 a c), r)
  else if mnemonic = "FRAME_LENGTH".toList then let (f, r) ← scanFrame ts; return (.op (.frameLength f), r)
  else if mnemonic = "FRAME_CHECKSUM".toList then
    let (f, r) ← scanFrame ts
    return (.op (.frameChecksum f), r)
  else if mnemonic = "SERIALIZE_TX".toList then let (q, r) ← scanTx ts; return (.op (.serializeTx q), r)
  else if mnemonic = "SERIALIZE_RX".toList then let (f, r) ← scanRx ts; return (.op (.serializeRx f), r)
  else if mnemonic = "HEX_FRAME".toList then
    let (f, r) ← scanFrame ts
    let (m, r) ← scanMode r
    return (.op (.hexFrame f m), r)
  else if mnemonic = "DECODE_RX".toList then
    let (t, r) ← scanInt 8 ts
    let (len, r) ← scanInt 16 r
    let (body, r) ← scanBytes r
    let (sum, r) ← scanInt 8 r
    let (ck, r) ← scanInt 8 r
    return (.op (.decodeRx t len body sum ck), r)
  else if mnemonic = "RXS".toList then let (x, r) ← scanBytes ts; return (.rxs x, r)
  else if mnemonic = "SEND0".toList then let (x, r) ← scanBytes ts; return (.send0 x, r)
  else if mnemonic = "SEND1".toList then
    let (a, r) ← scanInt 64 ts
    let (x, r) ← scanBytes r
    return (.send1 a x, r)
  else if mnemonic = "SEND2".toList then
    let (a, r) ← scanInt 64 ts
    let (c, r) ← scanInt 16 r
    let (x, r) ← scanBytes r
    return (.send2 a c x, r)
  else if mnemonic = "DRAIN".toList then return (.drain, ts)
  else none

/-- Read one line of a script (R83): a mnemonic and exactly its operands. -/
def readLine (line : List Char) : Option ScriptOp :=
  match lex false [] line with
  | .word mnemonic :: ts =>
    match scanOperands mnemonic ts with
    | some (l, []) => some l
    | _ => none
  | _ => none

end Sys2Proof.Machine
end

