-- ==== Sys2Proof/WellFormed.lean ====
section
/-! DEFINITION. Which instructions have every operand in its stated form (spec/30_encoding.md R82), for an instance
with the parameters `p`. A width is in the operand's type; what is checked here is the rest. -/

namespace Sys2Proof

open Sys2Proof.Machine

/-- Every operand of the instruction is in its form (R82; R32, R33 for the records, R104, R105 for the
lengths, R157 for DECODE_RX, R78 for the wire rows). -/
def Instr.wf (p : Params) (i : Instr) : Bool :=
  match i with
  | .connect _ => true
  | .stop => true
  | .send q => txForm p.cap q
  | .rxByte _ => true
  | .rxError => true
  | .rxTimeout => true
  | .txByte => true
  | .txError => true
  | .beEnc8 _ => true
  | .beEnc16 _ => true
  | .beEnc64 _ => true
  | .beDec16 bs => bs.length = 2
  | .beDec64 bs => bs.length = 8
  | .byteSum _ => true
  | .checksum _ => true
  | .hexText _ _ _ => true
  | .txNew0 => true
  | .txNew1 _ => true
  | .txNew2 _ _ => true
  | .txSetData q _ => txForm p.cap q
  | .rxNew0 => true
  | .rxNew1 _ => true
  | .rxNew2 _ _ => true
  | .frameLength f => frameForm p.cap f
  | .frameChecksum f => frameForm p.cap f
  | .serializeTx q => txForm p.cap q
  | .serializeRx f => rxForm p.cap f
  | .hexFrame f _ => frameForm p.cap f
  | .decodeRx _ len _ _ _ => len ≠ 0
  | .frameDelimiter => true
  | .rxPacket => true
  | .txRequest => true
  | .unrecognizedType t => t ≠ Config.typeRx && t ≠ Config.typeTx

end Sys2Proof
end

