-- ==== Sys2Proof/Safety.lean ====
section
/-! DEFINITION. What every reachable state satisfies (spec/10_state.md R39, with R25, R28, R31 and R33), and the
terms the statements use. -/

namespace Sys2Proof.Machine

open Sys2Proof

/-- The codes an `EvRxDrop` carries: the decode errors (R31, R210). -/
def ErrCode.isDecodeError (e : ErrCode) : Bool := e.errClass = .decode

/-- An event as R31 and the record forms of R32 and R33 allow it. -/
def eventForm (cap : Nat) (ev : Event) : Bool :=
  match ev with
  | .rxFrame r => recordForm cap r
  | .rxDrop e => e.isDecodeError
  | .txDone q st => txForm cap q && (st = .ok || st = .transportWrite)
  | .error e => e = .transportRead || e = .readTimeout

/-- A queued job: a well-formed request and its serialization (R28, R181). -/
def jobForm (cap : Nat) (j : TxJob) : Bool := txForm cap j.req && j.bytes = serializeTx j.req

/-- The work in flight: a well-formed request, its serialization, and an index into it (R29, R39 item 6). -/
def workForm (cap : Nat) (w : TxWork) : Bool :=
  txForm cap w.req && w.bytes = serializeTx w.req && w.idx < w.bytes.length

/-- The stored body and the sum of a partially read body (R39 item 4). Of the bytes past `RX_BODY_CAP` only
the count is kept, so the sum is stated while every body byte is stored (log 11). -/
def bodyForm (s : State) : Bool :=
  s.rxBody.length = min s.rxCount.toNat s.params.rxBodyCap &&
    (s.params.rxBodyCap < s.rxCount.toNat || s.rxSum = byteSum (s.rxType :: s.rxBody))

/-- The receive side (R39 items 2, 3 and 4). -/
def State.rxInv (s : State) : Bool :=
  match s.rxState with
  | .body => 2 ≤ s.rxLen.toNat && s.rxCount.toNat < s.rxLen.toNat - 1 && bodyForm s
  | .cksum => 1 ≤ s.rxLen.toNat && s.rxCount.toNat = s.rxLen.toNat - 1 && bodyForm s
  | _ => true

/-- No more than `P_TXQ_DEPTH` jobs wait when that is a number (R28). -/
def State.depthForm (s : State) : Bool :=
  match s.params.txqDepth with
  | .unbounded => true
  | .atMost n => s.txQueue.length ≤ n

/-- The transmit side (R39 items 5 and 6, R28). -/
def State.txInv (s : State) : Bool :=
  (s.connected || (s.txQueue.isEmpty && s.txCur.isNone)) &&
    s.txQueue.all (jobForm s.params.cap) &&
    s.txCur.all (workForm s.params.cap) && s.depthForm

/-- The invariant of the block (R39), with a legal queue depth (R10) and a log of well-formed events
(R31). -/
def State.Inv (s : State) : Prop :=
  s.params.legal = true ∧ s.rxInv = true ∧ s.txInv = true ∧ s.log.all (eventForm s.params.cap) = true

/-- The transmit completions of a log: each request with its status, in order (R31 `EvTxDone`). -/
def completions (log : List Event) : List (TxRequest × ErrCode) :=
  log.filterMap fun ev =>
    match ev with
    | .txDone q st => some (q, st)
    | .rxFrame _ => none
    | .rxDrop _ => none
    | .error _ => none

/-- The operation is one of the pure functions (R81 kind "function"). -/
def isFunction (i : Instr) : Bool :=
  match i with
  | .beEnc8 _ | .beEnc16 _ | .beEnc64 _ | .beDec16 _ | .beDec64 _ | .byteSum _ | .checksum _
  | .hexText _ _ _ | .txNew0 | .txNew1 _ | .txNew2 _ _ | .txSetData _ _ | .rxNew0 | .rxNew1 _
  | .rxNew2 _ _ | .frameLength _ | .frameChecksum _ | .serializeTx _ | .serializeRx _ | .hexFrame _ _
  | .decodeRx _ _ _ _ _ => true
  | .connect _ | .stop | .send _ | .rxByte _ | .rxError | .rxTimeout | .txByte | .txError
  | .frameDelimiter | .rxPacket | .txRequest | .unrecognizedType _ => false

/-- What the receive side holds (R22 to R27). -/
def State.rxSide (s : State) : RxState × Word16 × Byte × Bytes × Word16 × Byte :=
  (s.rxState, s.rxLen, s.rxType, s.rxBody, s.rxCount, s.rxSum)

/-- What the transmit side holds, with the line (R28, R29, R185). -/
def State.txSide (s : State) : List TxJob × Option TxWork × Bytes := (s.txQueue, s.txCur, s.line)

end Sys2Proof.Machine
end

