-- ==== Sys2Proof/Certificates/Slice0/Obligations.lean ====
section
/-! DEFINITION. The statements for the provers, from the numbered rules of spec/. Each is about every state
unless a hypothesis says otherwise; an equation between outcomes gives the whole next state, so what it does
not name is unchanged. -/

open Sys2Proof Sys2Proof.Machine

/-! ### Steps, words and encodings -/

/-- R5: a step takes the next input event and runs the operation it decodes to. That the event is the head of
`State.input`, and that the value of the step before is cleared, are the model's form (logs 1, 6). -/
def Obligations.StepRunsDecodedInstruction : Prop :=
  ∀ (s : State) (ev : InEvent) (rest : List InEvent) (i : Instr),
    s.input = ev :: rest → decode s.rxState.wirePlace ev = .ok i →
      step s = exec i { s with input := rest, ret := none }

/-- R5 and R62 for a received byte: whatever the parser's place makes of it (log 3), a step that takes the
byte `b` from the receive line does what RX_BYTE `b` does. -/
def Obligations.WireByteStepsAsRxByte : Prop :=
  ∀ (s : State) (b : Byte) (rest : List InEvent),
    s.input = .wire b :: rest → step s = exec (.rxByte b) { s with input := rest, ret := none }

/-- R81: a command whose code is not in the table is refused, whatever follows it. -/
def Obligations.UnassignedCodesAreRefused : Prop :=
  ∀ (s : State) (op : Byte) (w : Bytes) (rest : List InEvent),
    s.input = .command (op :: w) :: rest →
      (op.toNat = 0x00 ∨ (0x09 ≤ op.toNat ∧ op.toNat ≤ 0x0F) ∨ 0x25 ≤ op.toNat) →
      step s = .refused (.unassignedCode op)

/-- Decode and encode agree, for every well-formed instruction of an instance with any parameters: the wire
rows at their own place in a frame. The operand bytes are the model's (log 2). -/
def Obligations.DecodeOfEncodeIsTheInstruction : Prop :=
  ∀ (p : Params) (i : Instr), i.wf p = true → decode i.place (encode i) = .ok i

/-- Each command word has one meaning: a word the decoder accepts is the encoding of what it decodes to (log 2). -/
def Obligations.AcceptedWordsAreEncodings : Prop :=
  ∀ (w : Bytes) (i : Instr), decodeCommand w = .ok i → encode i = .command w

/-- Words written out from the codes of R81 and the values of R71 and R78 decode to their rows (operand bytes:
log 2). -/
def Obligations.WrittenWordsDecode : Prop :=
  decodeCommand [0x01, 0x01] = .ok (.connect true) ∧
  decodeCommand [0x02] = .ok .stop ∧
  decodeCommand [0x04, 0x7E] = .ok (.rxByte 0x7E) ∧
  decodeCommand [0x07] = .ok .txByte ∧
  decodeCommand [0x11, 0xFF, 0xFE] = .ok (.beEnc16 0xFFFE) ∧
  decodeCommand [0x1A, 0x00, 0x13, 0xA2, 0x00, 0x12, 0x34, 0x56, 0x78, 0xFF, 0xFE] =
    .ok (.txNew2 0x0013A20012345678 0xFFFE) ∧
  decode .delimiter (.wire 0x7E) = .ok .frameDelimiter ∧
  decode .frameType (.wire 0x90) = .ok .rxPacket ∧
  decode .frameType (.wire 0x10) = .ok .txRequest ∧
  decode .frameType (.wire 0xFF) = .ok (.unrecognizedType 0xFF)

/-- A script's operations run one after another are the steps of the machine over their command words
(R83, R84; logs 1 and 2). -/
def Obligations.ScriptsRunAsSteps : Prop :=
  ∀ (ops : List Instr) (s t : State),
    (∀ i ∈ ops, i.wf s.params = true ∧ i.place = .elsewhere) → s.input = [] →
      runOps ops s = .next t →
      Sys2Proof.core.run ops.length { s with input := ops.map encode } = .next t

/-! ### Reset and the invariant -/

/-- R241: the reset state, field by field, for an instance with any parameters. The four fields the spec does
not name are the model's (logs 1, 4, 6). -/
def Obligations.ResetStateFieldByField : Prop :=
  ∀ p : Params,
    (State.init p).rxState = .idle ∧ (State.init p).rxLen = 0 ∧ (State.init p).rxType = 0 ∧
    (State.init p).rxBody = [] ∧ (State.init p).rxCount = 0 ∧ (State.init p).rxSum = 0 ∧
    (State.init p).txQueue = [] ∧ (State.init p).txCur = none ∧ (State.init p).log = [] ∧
    (State.init p).params = p

/-- The invariant holds of a new instance with any legal parameters, and of the machine's own reset state. -/
def Obligations.InvariantHoldsAtReset : Prop :=
  (∀ p : Params, p.legal = true → (State.init p).Inv) ∧ State.reset.Inv

/-- R39 and R28: every step keeps the invariant, whatever input event it takes. -/
def Obligations.EveryStepKeepsTheInvariant : Prop :=
  ∀ s t : State, s.Inv → step s = .next t → t.Inv

/-- No step from a state of the invariant ends in a fault: no error is ever upgraded to a crash. -/
def Obligations.InvariantStatesNeverFault : Prop :=
  ∀ (s : State) (f : Fault), s.Inv → step s ≠ .fault f

/-- STOP and then a successful CONNECT restore every field of the reset state except the event log (R240),
the line and the model's own fields, and leave the parser in the delimiter search (R180). -/
def Obligations.StopThenConnectReinitialises : Prop :=
  ∀ s : State, s.Inv →
    ∃ t u, exec .stop s = .next t ∧ exec (.connect true) t = .next u ∧
      u = { State.init s.params with
            rxState := .awaitDelim, log := s.log, line := s.line, input := s.input,
            ret := some (.status .ok) }

/-! ### Codec functions -/

/-- R101. -/
def Obligations.BeEnc8GivesItsByte : Prop :=
  ∀ (v : Byte) (s : State), exec (.beEnc8 v) s = .next { s with ret := some (.bytes [v]) }

/-- R102: high byte first. -/
def Obligations.BeEnc16GivesHighByteFirst : Prop :=
  ∀ (v : Word16) (s : State), ∃ hi lo : Byte,
    exec (.beEnc16 v) s = .next { s with ret := some (.bytes [hi, lo]) } ∧
    hi.toNat = v.toNat / 256 ∧ lo.toNat = v.toNat % 256

/-- R103: eight bytes, the most significant first. -/
def Obligations.BeEnc64GivesEightBytes : Prop :=
  ∀ (v : Word64) (s : State), ∃ bs : Bytes,
    exec (.beEnc64 v) s = .next { s with ret := some (.bytes bs) } ∧ bs.length = 8 ∧
    ∀ i, i < 8 → bs[i]? = some (BitVec.ofNat 8 (v.toNat / 2 ^ (8 * (7 - i))))

/-- R104: the value of two bytes, the refusal of any other length, and both laws. -/
def Obligations.BeDec16ReadsBigEndian : Prop :=
  (∀ (a b : Byte) (s : State),
    exec (.beDec16 [a, b]) s =
      .next { s with ret := some (.u16 (BitVec.ofNat 16 (a.toNat * 256 + b.toNat))) }) ∧
  (∀ (bs : Bytes) (s : State), bs.length ≠ 2 →
    exec (.beDec16 bs) s = .refused (.operandForm "BE_DEC16")) ∧
  (∀ (v : Word16) (s : State), exec (.beDec16 (enc16 v)) s = .next { s with ret := some (.u16 v) }) ∧
  (∀ (bs : Bytes) (s : State), bs.length = 2 →
    ∃ v, exec (.beDec16 bs) s = .next { s with ret := some (.u16 v) } ∧ enc16 v = bs)

/-- R105: the value of eight bytes, the refusal of any other length, and both laws. -/
def Obligations.BeDec64ReadsBigEndian : Prop :=
  (∀ (bs : Bytes) (s : State), bs.length = 8 →
    exec (.beDec64 bs) s =
      .next { s with ret := some (.u64 (BitVec.ofNat 64
        (((List.range 8).map fun i => (bs.getD i 0).toNat * 2 ^ (8 * (7 - i))).sum))) }) ∧
  (∀ (bs : Bytes) (s : State), bs.length ≠ 8 →
    exec (.beDec64 bs) s = .refused (.operandForm "BE_DEC64")) ∧
  (∀ (v : Word64) (s : State), exec (.beDec64 (enc64 v)) s = .next { s with ret := some (.u64 v) }) ∧
  (∀ (bs : Bytes) (s : State), bs.length = 8 →
    ∃ v, exec (.beDec64 bs) s = .next { s with ret := some (.u64 v) } ∧ enc64 v = bs)

/-- R106: the sum of the bytes modulo 256, in any order of the bytes. -/
def Obligations.ByteSumAddsModulo256 : Prop :=
  ∀ (bs : Bytes) (s : State), ∃ x : Byte,
    exec (.byteSum bs) s = .next { s with ret := some (.u8 x) } ∧
    x.toNat = (bs.map BitVec.toNat).sum % 256 ∧
    ∀ bs' : Bytes, bs'.Perm bs → exec (.byteSum bs') s = .next { s with ret := some (.u8 x) }

/-- R107: `0xFF` minus the byte sum, in its three equivalent forms; with the sum it makes 0xFF. -/
def Obligations.ChecksumComplementsTheByteSum : Prop :=
  ∀ (bs : Bytes) (s : State), ∃ x ck : Byte,
    exec (.byteSum bs) s = .next { s with ret := some (.u8 x) } ∧
    exec (.checksum bs) s = .next { s with ret := some (.u8 ck) } ∧
    ck.toNat = 0xFF - x.toNat ∧ ck = ~~~x ∧ ck = x ^^^ 0xFF ∧ (x.toNat + ck.toNat) % 256 = 0xFF

/-- R108 and R109: two uppercase digits a byte, the separators, the length, and that the digits of each byte
stand at their places and determine it. -/
def Obligations.HexTextSpellsEveryByte : Prop :=
  (∀ d : BitVec 4, (hexdig d).toNat = if d.toNat ≤ 9 then 0x30 + d.toNat else 0x41 + (d.toNat - 10)) ∧
  Function.Injective hexdig ∧
  ∀ (bs : Bytes) (sep trail : Bool) (s : State), ∃ t : Bytes,
    exec (.hexText bs sep trail) s = .next { s with ret := some (.text t) } ∧
    t = ((bs.map fun b => [hexdig (b.extractLsb' 4 4), hexdig (b.extractLsb' 0 4)]).intersperse
          (if sep then [0x20] else [])).flatten ++ (if trail then [0x20] else []) ∧
    t.length = 2 * bs.length + (if sep then bs.length - 1 else 0) + (if trail then 1 else 0) ∧
    ∀ (i : Nat) (b : Byte), bs[i]? = some b →
      t[(if sep then 3 else 2) * i]? = some (hexdig (b.extractLsb' 4 4)) ∧
      t[(if sep then 3 else 2) * i + 1]? = some (hexdig (b.extractLsb' 0 4))

/-- R100 for every function of R81: on operands in their form a function completes, its value depends on the operands and
the instance's parameters alone, and it changes nothing but the value returned. That DECODE_RX completes on every body with
`L` at least 1, also where R157 gives a field no value, is the model's choice (log 8). -/
def Obligations.FunctionsAreTotalAndPure : Prop :=
  ∀ (p : Params) (i : Instr), isFunction i = true → i.wf p = true →
    ∃ v : Value, ∀ s : State, s.params = p → exec i s = .next { s with ret := some v }

/-- R82: an operand outside its stated form is refused and given no value. That the form is tested before anything else,
so that SEND (a host command, while R82 speaks of function operands) refuses an ill-formed request in Idle and with a full
queue too, is the model's reading (log 12). -/
def Obligations.OperandsOutsideTheirFormAreRefused : Prop :=
  ∀ (i : Instr) (s : State), i.wf s.params = false → i.place = .elsewhere →
    ∃ mnemonic : String, exec i s = .refused (.operandForm mnemonic)

/-! ### Frame records and serialization -/

/-- R122, R123, R124, with the addresses the spec leaves OPEN (log 5). -/
def Obligations.TxConstructorsGiveDefaults : Prop :=
  ∀ (a64 : Word64) (a16 : Word16) (s : State),
    exec .txNew0 s = .next { s with ret := some (.request
      { frameId := 0, dst64 := Config.txAddr64Default, dst16 := Config.txAddr16Default, radius := 0,
        options := 0, data := [] }) } ∧
    exec (.txNew1 a64) s = .next { s with ret := some (.request
      { frameId := 0, dst64 := a64, dst16 := Config.txAddr16Default, radius := 0, options := 0,
        data := [] }) } ∧
    exec (.txNew2 a64 a16) s = .next { s with ret := some (.request
      { frameId := 0, dst64 := a64, dst16 := a16, radius := 0, options := 0, data := [] }) }

/-- R126, R127, R128, with the addresses the spec leaves OPEN (log 5). -/
def Obligations.RxConstructorsGiveDefaults : Prop :=
  ∀ (a64 : Word64) (a16 : Word16) (s : State),
    exec .rxNew0 s = .next { s with ret := some (.packet
      { src64 := Config.rxAddr64Default, src16 := Config.rxAddr16Default, options := 0, data := [] }) } ∧
    exec (.rxNew1 a64) s = .next { s with ret := some (.packet
      { src64 := a64, src16 := Config.rxAddr16Default, options := 0, data := [] }) } ∧
    exec (.rxNew2 a64 a16) s = .next { s with ret := some (.packet
      { src64 := a64, src16 := a16, options := 0, data := [] }) }

/-- R125: the text `pre ++ tail` whose first 0x00, if any, begins `tail`. -/
def Obligations.TxSetDataCopiesUpToTheFirstZero : Prop :=
  ∀ (q : TxRequest) (pre tail : Bytes) (s : State),
    txForm s.params.cap q = true → (∀ b ∈ pre, b ≠ 0) → (tail = [] ∨ tail.head? = some 0) →
    (pre.length ≤ s.params.cap →
      exec (.txSetData q (pre ++ tail)) s = .next { s with ret := some (.request { q with data := pre }) } ∧
      txForm s.params.cap { q with data := pre } = true) ∧
    (s.params.cap < pre.length →
      exec (.txSetData q (pre ++ tail)) s = .next { s with ret := some (.err .payloadTooLarge) })

/-- R129: the length of a well-formed frame of either variant, with no wrap. -/
def Obligations.FrameLengthCountsTypeFieldsAndPayload : Prop :=
  (∀ (f : RxFrame) (s : State), rxForm s.params.cap f = true → ∃ len : Word16,
    exec (.frameLength (.rx f)) s = .next { s with ret := some (.u16 len) } ∧
    len.toNat = 12 + f.data.length) ∧
  (∀ (q : TxRequest) (s : State), txForm s.params.cap q = true → ∃ len : Word16,
    exec (.frameLength (.tx q)) s = .next { s with ret := some (.u16 len) } ∧
    len.toNat = 14 + q.data.length)

/-- R130: the checksum runs over type, fields and payload. -/
def Obligations.FrameChecksumCoversTypeToPayload : Prop :=
  (∀ (f : RxFrame) (s : State), rxForm s.params.cap f = true →
    exec (.frameChecksum (.rx f)) s = .next { s with ret := some (.u8 (0xFF - BitVec.ofNat 8
      (0x90 + ((enc64 f.src64).map BitVec.toNat).sum + ((enc16 f.src16).map BitVec.toNat).sum +
        f.options.toNat + (f.data.map BitVec.toNat).sum))) }) ∧
  (∀ (q : TxRequest) (s : State), txForm s.params.cap q = true →
    exec (.frameChecksum (.tx q)) s = .next { s with ret := some (.u8 (0xFF - BitVec.ofNat 8
      (0x10 + q.frameId.toNat + ((enc64 q.dst64).map BitVec.toNat).sum +
        ((enc16 q.dst16).map BitVec.toNat).sum + q.radius.toNat + q.options.toNat +
        (q.data.map BitVec.toNat).sum))) })

/-- R131 and R132: the byte sequences of a TransmitRequest and of a ReceivePacket (the layouts of R74 and R73). -/
def Obligations.SerializationLaysOutTheFrame : Prop :=
  (∀ (q : TxRequest) (s : State), txForm s.params.cap q = true → ∃ hi lo ck : Byte, ∃ w : Bytes,
    exec (.serializeTx q) s = .next { s with ret := some (.bytes w) } ∧
    w = [0x7E, hi, lo, 0x10, q.frameId] ++ enc64 q.dst64 ++ enc16 q.dst16 ++ [q.radius, q.options] ++
        q.data ++ [ck] ∧
    hi.toNat * 256 + lo.toNat = 14 + q.data.length ∧
    ck = checksum ([0x10, q.frameId] ++ enc64 q.dst64 ++ enc16 q.dst16 ++ [q.radius, q.options] ++ q.data) ∧
    w.length = 18 + q.data.length) ∧
  (∀ (f : RxFrame) (s : State), rxForm s.params.cap f = true → ∃ hi lo ck : Byte, ∃ w : Bytes,
    exec (.serializeRx f) s = .next { s with ret := some (.bytes w) } ∧
    w = [0x7E, hi, lo, 0x90] ++ enc64 f.src64 ++ enc16 f.src16 ++ [f.options] ++ f.data ++ [ck] ∧
    hi.toNat * 256 + lo.toNat = 12 + f.data.length ∧
    ck = checksum ([0x90] ++ enc64 f.src64 ++ enc16 f.src16 ++ [f.options] ++ f.data) ∧
    w.length = 16 + f.data.length)

/-- R133: the three spacing modes over the serialized bytes `w` and checksum `ck`. -/
def Obligations.HexFrameSpacesByMode : Prop :=
  ∀ (f : Frame) (s : State), frameForm s.params.cap f = true → ∃ (w : Bytes) (ck : Byte),
    serialize f = w ++ [ck] ∧
    exec (.hexFrame f .none) s = .next { s with ret := some (.text ((w ++ [ck]).flatMap hex2)) } ∧
    exec (.hexFrame f .beforeCk) s =
      .next { s with ret := some (.text (w.flatMap hex2 ++ [0x20] ++ hex2 ck)) } ∧
    exec (.hexFrame f .all) s =
      .next { s with ret := some (.text ((w ++ [ck]).flatMap fun b => hex2 b ++ [0x20])) }

/-- R134: the four laws of a well-formed frame. -/
def Obligations.SerializedFramesObeyTheLaws : Prop :=
  ∀ (f : Frame) (cap : Fin 65522), frameForm cap.val f = true →
    (∃ len : Word16, dec16 (memRead (serialize f) 1 2) = some len ∧ len = frameLength f ∧
      len.toNat = (serialize f).length - 4) ∧
    (serialize f).getLast? = some (checksum (memRead (serialize f) 3 ((serialize f).length - 4))) ∧
    (((serialize f).drop 3).map BitVec.toNat).sum % 256 = 0xFF ∧
    (hexFrame f .none).length = 2 * (serialize f).length ∧
    (hexFrame f .beforeCk).length = 2 * (serialize f).length + 1 ∧
    (hexFrame f .all).length = 2 * (serialize f).length + (serialize f).length

/-! ### Receive side -/

/-- R150: a byte delivered while `Idle` is lost; and from a connected state of the invariant every byte value
is accepted and the block stays connected. -/
def Obligations.ReceivingAcceptsEveryByte : Prop :=
  (∀ (b : Byte) (s : State), s.rxState = .idle → exec (.rxByte b) s = .next s) ∧
  (∀ (b : Byte) (s : State), s.Inv → s.rxState ≠ .idle →
    ∃ t, exec (.rxByte b) s = .next t ∧ t.rxState ≠ .idle)

/-- R151: the delimiter search. -/
def Obligations.DelimiterSearchDiscardsOtherBytes : Prop :=
  ∀ (b : Byte) (s : State), s.rxState = .awaitDelim →
    (b = 0x7E → exec (.rxByte b) s = .next { s with rxState := .lenHi }) ∧
    (b ≠ 0x7E → exec (.rxByte b) s = .next s)

/-- R152 and R153: the two length bytes give the big-endian value; in `LenLo` the low byte is or-ed in. -/
def Obligations.LengthIsReadHighByteFirst : Prop :=
  (∀ (b : Byte) (s : State), s.rxState = .lenHi →
    exec (.rxByte b) s = .next { s with rxLen := BitVec.ofNat 16 (b.toNat * 256), rxState := .lenLo }) ∧
  (∀ (b : Byte) (s : State), s.rxState = .lenLo →
    exec (.rxByte b) s = .next { s with rxLen := s.rxLen ||| b.setWidth 16, rxState := .type }) ∧
  (∀ (hi lo : Byte) (s : State), s.rxState = .lenHi → ∃ t,
    exec (.rxByte hi) s = .next t ∧
    exec (.rxByte lo) t =
      .next { s with rxLen := BitVec.ofNat 16 (hi.toNat * 256 + lo.toNat), rxState := .type })

/-- R154: the frame type is recorded, the body and its sum begin, and the length decides what follows. -/
def Obligations.TypeByteStartsTheBody : Prop :=
  ∀ (b : Byte) (s : State), s.rxState = .type →
    (s.rxLen.toNat = 0 → exec (.rxByte b) s = .next { s with
      rxType := b, rxSum := b, rxBody := [], rxCount := 0, rxState := .awaitDelim,
      log := s.log ++ [.rxDrop .zeroLength] }) ∧
    (s.rxLen.toNat = 1 → exec (.rxByte b) s = .next { s with
      rxType := b, rxSum := b, rxBody := [], rxCount := 0, rxState := .cksum }) ∧
    (2 ≤ s.rxLen.toNat → exec (.rxByte b) s = .next { s with
      rxType := b, rxSum := b, rxBody := [], rxCount := 0, rxState := .body })

/-- R155: a body byte is stored while there is room, and counted and summed in any case. -/
def Obligations.BodyByteIsStoredCountedSummed : Prop :=
  ∀ (b : Byte) (s : State), s.rxState = .body → s.rxCount.toNat < s.rxLen.toNat - 1 →
    ∃ t, exec (.rxByte b) s = .next t ∧
      t.rxCount.toNat = s.rxCount.toNat + 1 ∧
      t.rxSum.toNat = (s.rxSum.toNat + b.toNat) % 256 ∧
      (s.rxCount.toNat < 11 + s.params.cap → t.rxBody = s.rxBody ++ [b]) ∧
      (11 + s.params.cap ≤ s.rxCount.toNat → t.rxBody = s.rxBody) ∧
      (s.rxCount.toNat + 1 = s.rxLen.toNat - 1 → t.rxState = .cksum) ∧
      (s.rxCount.toNat + 1 ≠ s.rxLen.toNat - 1 → t.rxState = .body) ∧
      t = { s with rxBody := t.rxBody, rxCount := t.rxCount, rxSum := t.rxSum, rxState := t.rxState }

/-- R156: the checksum byte dispatches the frame by DECODE_RX, one event, and back to the delimiter search. -/
def Obligations.ChecksumByteDispatchesTheFrame : Prop :=
  ∀ (b : Byte) (s : State), s.Inv → s.rxState = .cksum →
    (∃ r : RxRecord,
      exec (.decodeRx s.rxType s.rxLen s.rxBody s.rxSum b) s = .next { s with ret := some (.decoded r) } ∧
      exec (.rxByte b) s = .next { s with rxState := .awaitDelim, log := s.log ++ [.rxFrame r] }) ∨
    (∃ e : ErrCode, e ≠ .ok ∧
      exec (.decodeRx s.rxType s.rxLen s.rxBody s.rxSum b) s = .next { s with ret := some (.err e) } ∧
      exec (.rxByte b) s = .next { s with rxState := .awaitDelim, log := s.log ++ [.rxDrop e] })

/-- R157: the four tests in their order, whatever the body; then the record read from the body, its payload up to the first
0x00, within `P_DATA_CAP` as the data of every record is (R32; a stored body, of at most `RX_BODY_CAP` bytes, R25, has no
longer payload). -/
def Obligations.DecodeRxTestsThenReads : Prop :=
  ∀ (t : Byte) (len : Word16) (body : Bytes) (sum ck : Byte) (s : State), 1 ≤ len.toNat →
    (s.params.verifyChecksum = true ∧ (sum.toNat + ck.toNat) % 256 ≠ 0xFF →
      exec (.decodeRx t len body sum ck) s = .next { s with ret := some (.err .checksumMismatch) }) ∧
    (¬ (s.params.verifyChecksum = true ∧ (sum.toNat + ck.toNat) % 256 ≠ 0xFF) →
      (t ≠ 0x90 →
        exec (.decodeRx t len body sum ck) s = .next { s with ret := some (.err .unknownType) }) ∧
      (t = 0x90 → len.toNat - 1 < 11 →
        exec (.decodeRx t len body sum ck) s = .next { s with ret := some (.err .shortFrame) }) ∧
      (t = 0x90 → 11 + s.params.cap < len.toNat - 1 →
        exec (.decodeRx t len body sum ck) s = .next { s with ret := some (.err .oversize) }) ∧
      (∀ (a64 : Word64) (a16 : Word16) (o : Byte) (pre tail : Bytes),
        t = 0x90 → 11 ≤ len.toNat - 1 → len.toNat - 1 ≤ 11 + s.params.cap →
        body = enc64 a64 ++ enc16 a16 ++ [o] ++ pre ++ tail →
        (∀ b ∈ pre, b ≠ 0) → (tail = [] ∨ tail.head? = some 0) → pre.length ≤ s.params.cap →
        exec (.decodeRx t len body sum ck) s = .next { s with ret := some (.decoded
          { src64 := a64, src16 := a16, options := o, data := pre, rxLength := len,
            rxChecksum := ck }) }))

/-- DECODE_RX runs on every body. Where the tests pass it returns a record of the form of R32 with the length and checksum as
given and every field that the body holds; what the spec states no value for is an open value, here unconstrained
(log 8, the model's choice). `L` = 0 alone is outside the stated form (R157) and refused (R82). -/
def Obligations.DecodeRxRunsOnEveryBody : Prop :=
  (∀ (len : Word16) (body : Bytes) (sum ck : Byte) (s : State),
    ¬ (s.params.verifyChecksum = true ∧ (sum.toNat + ck.toNat) % 256 ≠ 0xFF) →
    12 ≤ len.toNat → len.toNat ≤ 12 + s.params.cap →
    ∃ r : RxRecord,
      exec (.decodeRx 0x90 len body sum ck) s = .next { s with ret := some (.decoded r) } ∧
      r.rxLength = len ∧ r.rxChecksum = ck ∧
      (∀ b ∈ r.data, b ≠ 0) ∧ r.data.length ≤ s.params.cap ∧
      (8 ≤ body.length → enc64 r.src64 = body.take 8) ∧
      (10 ≤ body.length → enc16 r.src16 = (body.drop 8).take 2) ∧
      (∀ o, body[10]? = some o → r.options = o) ∧
      ((takeZ (body.drop 11)).length ≤ s.params.cap → r.data = takeZ (body.drop 11))) ∧
  (∀ (t : Byte) (body : Bytes) (sum ck : Byte) (s : State),
    exec (.decodeRx t 0 body sum ck) s = .refused (.operandForm "DECODE_RX"))

/-- R160. -/
def Obligations.ReadErrorAbandonsTheFrame : Prop :=
  ∀ s : State,
    (s.rxState = .idle → exec .rxError s = .next s) ∧
    (s.rxState ≠ .idle →
      exec .rxError s = .next { s with rxState := .awaitDelim, log := s.log ++ [.error .transportRead] })

/-- R161: where the timeout is enabled it abandons the frame; elsewhere it does not occur (no step gives a next state). -/
def Obligations.ReadTimeoutAbandonsTheFrame : Prop :=
  ∀ s : State,
    (s.params.readTimeoutEn = true →
      s.rxState = .lenHi ∨ s.rxState = .lenLo ∨ s.rxState = .type ∨ s.rxState = .body ∨ s.rxState = .cksum →
      exec .rxTimeout s = .next { s with rxState := .awaitDelim, log := s.log ++ [.error .readTimeout] }) ∧
    (s.params.readTimeoutEn = false ∨ s.rxState = .idle ∨ s.rxState = .awaitDelim →
      ∀ t : State, exec .rxTimeout s ≠ .next t)

/-- An event that is not enabled does not occur (R161, R183, R184): RX_TIMEOUT without its parameter or with no frame
partially read, TX_BYTE and TX_ERROR with no job. That the model refuses such a step by name is its choice (log 7). -/
def Obligations.EventsNotEnabledAreRefused : Prop :=
  ∀ s : State,
    (s.params.readTimeoutEn = false ∨ s.rxState = .idle ∨ s.rxState = .awaitDelim →
      exec .rxTimeout s = .refused (.notEnabled "RX_TIMEOUT")) ∧
    (s.txCur = none → s.txQueue = [] →
      exec .txByte s = .refused (.notEnabled "TX_BYTE") ∧ exec .txError s = .refused (.notEnabled "TX_ERROR"))

/-- The wire rows are received bytes (R71, R78; log 3): at their place in a frame the delimiter begins the header,
and each frame type is recorded and not yet classified (R151, R154). -/
def Obligations.WireRowsAreReceivedBytes : Prop :=
  (∀ s : State, s.rxState = .awaitDelim → exec .frameDelimiter s = .next { s with rxState := .lenHi }) ∧
  (∀ s : State, s.rxState = .type → 2 ≤ s.rxLen.toNat →
    exec .rxPacket s = .next { s with
      rxType := 0x90, rxSum := 0x90, rxBody := [], rxCount := 0, rxState := .body } ∧
    exec .txRequest s = .next { s with
      rxType := 0x10, rxSum := 0x10, rxBody := [], rxCount := 0, rxState := .body } ∧
    ∀ t : Byte, t ≠ 0x90 → t ≠ 0x10 → exec (.unrecognizedType t) s = .next { s with
      rxType := t, rxSum := t, rxBody := [], rxCount := 0, rxState := .body }) ∧
  (∀ (s : State) (t : Byte),
    exec .frameDelimiter s = exec (.rxByte 0x7E) s ∧ exec .rxPacket s = exec (.rxByte 0x90) s ∧
    exec .txRequest s = exec (.rxByte 0x10) s ∧ exec (.unrecognizedType t) s = exec (.rxByte t) s)

/-- R158: a frame of length field `L` at least 1 consumes its `L + 4` bytes, and one of length field 0 exactly four; the
last byte emits the frame's one event (for `L` at least 1 the event DECODE_RX gives for the stored body and the sum of
the whole body) and returns the parser to the delimiter search, and no byte before it does either. -/
def Obligations.FrameConsumesItsLength : Prop :=
  (∀ (hi lo t ck : Byte) (body frame : Bytes) (s : State),
    s.rxState = .awaitDelim → 1 ≤ hi.toNat * 256 + lo.toNat →
    body.length = hi.toNat * 256 + lo.toNat - 1 → frame = [0x7E, hi, lo, t] ++ body ++ [ck] →
    frame.length = hi.toNat * 256 + lo.toNat + 4 ∧
    (∃ (u : State) (ev : Event), rxs frame s = .next u ∧ u.rxState = .awaitDelim ∧
      u.log = s.log ++ [ev] ∧ u.txSide = s.txSide ∧
      dispatchEvent (decodeRx s.params t (BitVec.ofNat 16 (hi.toNat * 256 + lo.toNat))
        (body.take s.params.rxBodyCap) (byteSum (t :: body)) ck) = some ev) ∧
    (∀ n, 1 ≤ n → n < frame.length → ∃ u : State, rxs (frame.take n) s = .next u ∧
      u.log = s.log ∧ u.rxState ≠ .awaitDelim ∧ u.rxState ≠ .idle)) ∧
  (∀ (t : Byte) (s : State), s.rxState = .awaitDelim →
    (∃ u : State, rxs [0x7E, 0, 0, t] s = .next u ∧ u.rxState = .awaitDelim ∧
      u.log = s.log ++ [.rxDrop .zeroLength] ∧ u.txSide = s.txSide) ∧
    (∀ n, 1 ≤ n → n < 4 → ∃ u : State, rxs (([0x7E, 0, 0, t] : Bytes).take n) s = .next u ∧
      u.log = s.log ∧ u.rxState ≠ .awaitDelim ∧ u.rxState ≠ .idle))

/-- R135: a connected block in the delimiter search that receives the serialization of a well-formed ReceivePacket
gives exactly that packet back, under both values of `P_VERIFY_CHECKSUM`; the serialization of a TransmitRequest is
dropped as an unknown type (R78). -/
def Obligations.SerializedPacketsRoundTrip : Prop :=
  (∀ (f : RxFrame) (s : State), s.rxState = .awaitDelim → rxForm s.params.cap f = true →
    ∃ u : State, rxs (serializeRx f) s = .next u ∧ u.rxState = .awaitDelim ∧
      u.log = s.log ++ [.rxFrame
        { src64 := f.src64, src16 := f.src16, options := f.options, data := f.data,
          rxLength := frameLength (.rx f), rxChecksum := frameChecksum (.rx f) }]) ∧
  (∀ (q : TxRequest) (s : State), s.rxState = .awaitDelim → txForm s.params.cap q = true →
    ∃ u : State, rxs (serializeTx q) s = .next u ∧ u.rxState = .awaitDelim ∧
      u.log = s.log ++ [.rxDrop .unknownType])

/-- R227 and R160: after a read error at any place of any frame the next byte is already searched for a delimiter, so
the ReceivePacket received next is decoded whole. -/
def Obligations.AfterAReadErrorTheNextFrameDecodes : Prop :=
  ∀ (f : RxFrame) (s : State), s.rxState ≠ .idle → rxForm s.params.cap f = true →
    ∃ t u : State, exec .rxError s = .next t ∧ rxs (serializeRx f) t = .next u ∧
      u.log = s.log ++ [.error .transportRead, .rxFrame
        { src64 := f.src64, src16 := f.src16, options := f.options, data := f.data,
          rxLength := frameLength (.rx f), rxChecksum := frameChecksum (.rx f) }] ∧
      u.txSide = s.txSide

/-! ### Commands and transmit side -/

/-- R180. -/
def Obligations.ConnectOpensOnce : Prop :=
  ∀ s : State,
    (∀ openOk : Bool, s.rxState ≠ .idle →
      exec (.connect openOk) s = .next { s with ret := some (.status .alreadyConnected) }) ∧
    (s.rxState = .idle →
      exec (.connect false) s = .next { s with ret := some (.status .connectionError) }) ∧
    (s.rxState = .idle →
      exec (.connect true) s = .next { s with
        rxState := .awaitDelim, rxLen := 0, rxType := 0, rxBody := [], rxCount := 0, rxSum := 0,
        ret := some (.status .ok) })

/-- R181: a well-formed request is turned away while not connected or full, and else queued with its
serialization. -/
def Obligations.SendQueuesTheSerialization : Prop :=
  ∀ (q : TxRequest) (s : State), txForm s.params.cap q = true →
    (s.rxState = .idle → exec (.send q) s = .next { s with ret := some (.status .notConnected) }) ∧
    (s.rxState ≠ .idle → s.params.txqDepth = .atMost s.txQueue.length →
      exec (.send q) s = .next { s with ret := some (.status .queueFull) }) ∧
    (s.rxState ≠ .idle → s.params.txqDepth ≠ .atMost s.txQueue.length →
      exec (.send q) s = .next { s with
        txQueue := s.txQueue ++ [{ req := q, bytes := serializeTx q }], ret := some (.status .ok) })

/-- R182. -/
def Obligations.StopDropsEverythingSilently : Prop :=
  ∀ s : State,
    (s.rxState = .idle → exec .stop s = .next { s with ret := some (.status .ok) }) ∧
    (s.rxState ≠ .idle → exec .stop s = .next { s with
      rxState := .idle, txQueue := [], txCur := none, ret := some (.status .ok) })

/-- R183: the next byte of the work in flight, or the first byte of the next job; with neither the event does not occur
(no step gives a next state). -/
def Obligations.TxByteTakesTheNextByte : Prop :=
  (∀ (s : State) (w : TxWork) (b : Byte), s.txCur = some w → w.bytes[w.idx]? = some b →
    (w.idx + 1 = w.bytes.length → exec .txByte s = .next { s with
      line := s.line ++ [b], log := s.log ++ [.txDone w.req .ok], txCur := none }) ∧
    (w.idx + 1 ≠ w.bytes.length → exec .txByte s = .next { s with
      line := s.line ++ [b], txCur := some { w with idx := w.idx + 1 } })) ∧
  (∀ (s : State) (j : TxJob) (js : List TxJob) (b : Byte),
    s.txCur = none → s.txQueue = j :: js → j.bytes[0]? = some b →
    (j.bytes.length = 1 → exec .txByte s = .next { s with
      txQueue := js, line := s.line ++ [b], log := s.log ++ [.txDone j.req .ok] }) ∧
    (j.bytes.length ≠ 1 → exec .txByte s = .next { s with
      txQueue := js, line := s.line ++ [b],
      txCur := some { req := j.req, bytes := j.bytes, idx := 1 } })) ∧
  (∀ s t : State, s.txCur = none → s.txQueue = [] → exec .txByte s ≠ .next t)

/-- R184: the work in flight, or the next job, ends with `TransportWrite`; with neither the event does not occur (no step
gives a next state). -/
def Obligations.TxErrorEndsTheJob : Prop :=
  (∀ (s : State) (w : TxWork), s.txCur = some w →
    exec .txError s = .next { s with log := s.log ++ [.txDone w.req .transportWrite], txCur := none }) ∧
  (∀ (s : State) (j : TxJob) (js : List TxJob), s.txCur = none → s.txQueue = j :: js →
    exec .txError s = .next { s with
      txQueue := js, log := s.log ++ [.txDone j.req .transportWrite] }) ∧
  (∀ s t : State, s.txCur = none → s.txQueue = [] → exec .txError s ≠ .next t)

/-- R185: from a state with nothing to send, whatever events the steps take, the bytes that have joined the line are the
serializations of requests, one after another: each whole where its `EvTxDone` says `Ok`, else a prefix, in the order
of the `EvTxDone` events (a segment without one was cut off by STOP or is still in flight). -/
def Obligations.LineCarriesSerializationsInOrder : Prop :=
  ∀ (n : Nat) (s t : State), s.Inv → s.txCur = none → s.txQueue = [] → Sys2Proof.core.run n s = .next t →
    ∃ sent : List (TxRequest × Nat × Option ErrCode),
      t.line = s.line ++ sent.flatMap (fun g => (serializeTx g.1).take g.2.1) ∧
      completions t.log = completions s.log ++ sent.filterMap (fun g => g.2.2.map fun e => (g.1, e)) ∧
      ∀ g ∈ sent, g.2.2 = some .ok → g.2.1 = (serializeTx g.1).length

/-- R185 for a DRAIN (R84): from a state of the invariant the line carries the rest of the work in flight and then
each queued serialization, in order; each job ends with one `EvTxDone(q, Ok)`, and the receive side is as before. -/
def Obligations.DrainSendsEveryJobInOrder : Prop :=
  ∀ s : State, s.Inv →
    ∃ u : State, drain s = .next u ∧ u.txCur = none ∧ u.txQueue = [] ∧
      u.line = s.line ++ s.pending ∧
      u.log = s.log ++ (s.txCur.toList.map fun w => .txDone w.req .ok) ++
        (s.txQueue.map fun j => .txDone j.req .ok) ∧
      u.rxSide = s.rxSide

/-- R185's example: SEND2 of the text "hi" to any addresses on a connected block with nothing to send, and a DRAIN. -/
def Obligations.SendHiPutsTheFrameOnTheLine : Prop :=
  ∀ (a64 : Word64) (a16 : Word16) (s : State),
    s.rxState ≠ .idle → s.txCur = none → s.txQueue = [] → 2 ≤ s.params.cap → s.params.legal = true →
    ∃ (t u : State) (ck : Byte), runLine (.send2 a64 a16 [0x68, 0x69]) s = .next t ∧
      t.ret = some (.status .ok) ∧ drain t = .next u ∧
      u.line = s.line ++ [0x7E, 0x00, 0x10, 0x10, 0x00] ++ enc64 a64 ++ enc16 a16 ++
        [0x00, 0x00, 0x68, 0x69, ck] ∧
      ck.toNat = 0xFF - (0x10 + 0x68 + 0x69 + ((enc64 a64).map BitVec.toNat).sum +
        ((enc16 a16).map BitVec.toNat).sum) % 256

/-- R84: a SENDn whose TX_SET_DATA fails returns `PayloadTooLarge` and issues no SEND; else it is the SEND of the
request with the copied text. -/
def Obligations.SendPseudoOperationsExpand : Prop :=
  ∀ (a64 : Word64) (a16 : Word16) (text : Bytes) (s : State), (∀ b ∈ text, b ≠ 0) →
    (s.params.cap < text.length →
      runLine (.send0 text) s = .next { s with ret := some (.status .payloadTooLarge) } ∧
      runLine (.send1 a64 text) s = .next { s with ret := some (.status .payloadTooLarge) } ∧
      runLine (.send2 a64 a16 text) s = .next { s with ret := some (.status .payloadTooLarge) }) ∧
    (text.length ≤ s.params.cap →
      runLine (.send0 text) s = exec (.send { txNew0 with data := text }) { s with ret := none } ∧
      runLine (.send1 a64 text) s = exec (.send { txNew1 a64 with data := text }) { s with ret := none } ∧
      runLine (.send2 a64 a16 text) s =
        exec (.send { txNew2 a64 a16 with data := text }) { s with ret := none })

/-! ### The whole machine -/

/-- Each step takes one input event, emits at most one event (R225) and puts at most one byte on the line (R5),
forgets nothing logged or sent (R30), and leaves the parameters alone (R37). -/
def Obligations.EachStepEmitsAtMostOneEvent : Prop :=
  ∀ s t : State, step s = .next t →
    t.params = s.params ∧
    (∃ ev : InEvent, s.input = ev :: t.input) ∧
    (t.log = s.log ∨ ∃ e : Event, t.log = s.log ++ [e]) ∧
    (t.line = s.line ∨ ∃ b : Byte, t.line = s.line ++ [b])

/-- What each operation other than the functions leaves alone: the receive events the transmit side, the transmit
events the receive side, SEND both the receive side and the line; and only TX_BYTE ever puts a byte on the line (R185). -/
def Obligations.SidesDoNotTouchEachOther : Prop :=
  (∀ (i : Instr) (s t : State), exec i s = .next t → i ≠ .txByte → t.line = s.line) ∧
  (∀ (s t : State) (b : Byte),
    exec (.rxByte b) s = .next t ∨ exec .rxError s = .next t ∨ exec .rxTimeout s = .next t →
      t.txSide = s.txSide ∧ t.ret = s.ret) ∧
  (∀ s t : State, exec .txByte s = .next t ∨ exec .txError s = .next t →
      t.rxSide = s.rxSide ∧ t.ret = s.ret) ∧
  (∀ (q : TxRequest) (s t : State), exec (.send q) s = .next t →
      t.rxSide = s.rxSide ∧ t.txCur = s.txCur ∧ t.log = s.log)

/-- R62: a received byte and a transmitted byte may be delivered in either order; both sides and the line come out the
same, and the log holds the same events. -/
def Obligations.ReceiveAndTransmitCommute : Prop :=
  ∀ (b : Byte) (s t u : State), exec (.rxByte b) s = .next t → exec .txByte s = .next u →
    ∃ x y : State, exec .txByte t = .next x ∧ exec (.rxByte b) u = .next y ∧
      x.rxSide = y.rxSide ∧ x.txSide = y.txSide ∧ x.log.Perm y.log

/-- R63 and R182: from a state that is not connected, however many steps run, as long as no CONNECT that succeeds is
among the input events, the block stays unconnected and neither an event nor a transmitted byte is added. -/
def Obligations.NothingHappensUntilConnect : Prop :=
  ∀ (n : Nat) (s t : State), s.Inv → s.rxState = .idle →
    (∀ ev ∈ s.input, ev ≠ encode (.connect true)) → Sys2Proof.core.run n s = .next t →
      t.rxState = .idle ∧ t.log = s.log ∧ t.line = s.line ∧ t.txQueue = [] ∧ t.txCur = none

/-- Only STOP ends a connection and only a successful CONNECT begins one (R21): no received byte, error, timeout or
function changes whether the block is connected. -/
def Obligations.OnlyConnectAndStopChangeTheConnection : Prop :=
  ∀ (i : Instr) (s t : State), exec i s = .next t → i ≠ .connect true → i ≠ .stop →
    (t.rxState = .idle ↔ s.rxState = .idle)

/-- R210: the numeric codes. -/
def Obligations.ErrorCodesAreNumbered : Prop :=
  ErrCode.ok.code = 0 ∧ ErrCode.connectionError.code = 1 ∧ ErrCode.alreadyConnected.code = 2 ∧
  ErrCode.notConnected.code = 3 ∧ ErrCode.payloadTooLarge.code = 4 ∧ ErrCode.queueFull.code = 5 ∧
  ErrCode.transportRead.code = 6 ∧ ErrCode.transportWrite.code = 7 ∧ ErrCode.readTimeout.code = 8 ∧
  ErrCode.zeroLength.code = 9 ∧ ErrCode.checksumMismatch.code = 10 ∧ ErrCode.unknownType.code = 11 ∧
  ErrCode.shortFrame.code = 12 ∧ ErrCode.oversize.code = 13
end

