-- ==== Sys2Proof/Laws/State.lean ====
section
/-! SUPPORT. One lemma for each field of State and each named update of it, so that no proof unfolds an update. -/

namespace Sys2Proof.Machine

open Sys2Proof

@[simp] theorem State.emit_params (s : State) (ev : Event) : (s.emit ev).params = s.params := rfl
@[simp] theorem State.emit_rxState (s : State) (ev : Event) : (s.emit ev).rxState = s.rxState := rfl
@[simp] theorem State.emit_rxLen (s : State) (ev : Event) : (s.emit ev).rxLen = s.rxLen := rfl
@[simp] theorem State.emit_rxType (s : State) (ev : Event) : (s.emit ev).rxType = s.rxType := rfl
@[simp] theorem State.emit_rxBody (s : State) (ev : Event) : (s.emit ev).rxBody = s.rxBody := rfl
@[simp] theorem State.emit_rxCount (s : State) (ev : Event) : (s.emit ev).rxCount = s.rxCount := rfl
@[simp] theorem State.emit_rxSum (s : State) (ev : Event) : (s.emit ev).rxSum = s.rxSum := rfl
@[simp] theorem State.emit_txQueue (s : State) (ev : Event) : (s.emit ev).txQueue = s.txQueue := rfl
@[simp] theorem State.emit_txCur (s : State) (ev : Event) : (s.emit ev).txCur = s.txCur := rfl
@[simp] theorem State.emit_log (s : State) (ev : Event) : (s.emit ev).log = s.log ++ [ev] := rfl
@[simp] theorem State.emit_line (s : State) (ev : Event) : (s.emit ev).line = s.line := rfl
@[simp] theorem State.emit_ret (s : State) (ev : Event) : (s.emit ev).ret = s.ret := rfl
@[simp] theorem State.emit_input (s : State) (ev : Event) : (s.emit ev).input = s.input := rfl

@[simp] theorem State.out_params (s : State) (b : Byte) : (s.out b).params = s.params := rfl
@[simp] theorem State.out_rxState (s : State) (b : Byte) : (s.out b).rxState = s.rxState := rfl
@[simp] theorem State.out_rxLen (s : State) (b : Byte) : (s.out b).rxLen = s.rxLen := rfl
@[simp] theorem State.out_rxType (s : State) (b : Byte) : (s.out b).rxType = s.rxType := rfl
@[simp] theorem State.out_rxBody (s : State) (b : Byte) : (s.out b).rxBody = s.rxBody := rfl
@[simp] theorem State.out_rxCount (s : State) (b : Byte) : (s.out b).rxCount = s.rxCount := rfl
@[simp] theorem State.out_rxSum (s : State) (b : Byte) : (s.out b).rxSum = s.rxSum := rfl
@[simp] theorem State.out_txQueue (s : State) (b : Byte) : (s.out b).txQueue = s.txQueue := rfl
@[simp] theorem State.out_txCur (s : State) (b : Byte) : (s.out b).txCur = s.txCur := rfl
@[simp] theorem State.out_log (s : State) (b : Byte) : (s.out b).log = s.log := rfl
@[simp] theorem State.out_line (s : State) (b : Byte) : (s.out b).line = s.line ++ [b] := rfl
@[simp] theorem State.out_ret (s : State) (b : Byte) : (s.out b).ret = s.ret := rfl
@[simp] theorem State.out_input (s : State) (b : Byte) : (s.out b).input = s.input := rfl

@[simp] theorem State.returns_params (s : State) (v : Value) : (s.returns v).params = s.params := rfl
@[simp] theorem State.returns_rxState (s : State) (v : Value) : (s.returns v).rxState = s.rxState := rfl
@[simp] theorem State.returns_rxLen (s : State) (v : Value) : (s.returns v).rxLen = s.rxLen := rfl
@[simp] theorem State.returns_rxType (s : State) (v : Value) : (s.returns v).rxType = s.rxType := rfl
@[simp] theorem State.returns_rxBody (s : State) (v : Value) : (s.returns v).rxBody = s.rxBody := rfl
@[simp] theorem State.returns_rxCount (s : State) (v : Value) : (s.returns v).rxCount = s.rxCount := rfl
@[simp] theorem State.returns_rxSum (s : State) (v : Value) : (s.returns v).rxSum = s.rxSum := rfl
@[simp] theorem State.returns_txQueue (s : State) (v : Value) : (s.returns v).txQueue = s.txQueue := rfl
@[simp] theorem State.returns_txCur (s : State) (v : Value) : (s.returns v).txCur = s.txCur := rfl
@[simp] theorem State.returns_log (s : State) (v : Value) : (s.returns v).log = s.log := rfl
@[simp] theorem State.returns_line (s : State) (v : Value) : (s.returns v).line = s.line := rfl
@[simp] theorem State.returns_ret (s : State) (v : Value) : (s.returns v).ret = some v := rfl
@[simp] theorem State.returns_input (s : State) (v : Value) : (s.returns v).input = s.input := rfl

@[simp] theorem State.goto_params (s : State) (r : RxState) : (s.goto r).params = s.params := rfl
@[simp] theorem State.goto_rxState (s : State) (r : RxState) : (s.goto r).rxState = r := rfl
@[simp] theorem State.goto_rxLen (s : State) (r : RxState) : (s.goto r).rxLen = s.rxLen := rfl
@[simp] theorem State.goto_rxType (s : State) (r : RxState) : (s.goto r).rxType = s.rxType := rfl
@[simp] theorem State.goto_rxBody (s : State) (r : RxState) : (s.goto r).rxBody = s.rxBody := rfl
@[simp] theorem State.goto_rxCount (s : State) (r : RxState) : (s.goto r).rxCount = s.rxCount := rfl
@[simp] theorem State.goto_rxSum (s : State) (r : RxState) : (s.goto r).rxSum = s.rxSum := rfl
@[simp] theorem State.goto_txQueue (s : State) (r : RxState) : (s.goto r).txQueue = s.txQueue := rfl
@[simp] theorem State.goto_txCur (s : State) (r : RxState) : (s.goto r).txCur = s.txCur := rfl
@[simp] theorem State.goto_log (s : State) (r : RxState) : (s.goto r).log = s.log := rfl
@[simp] theorem State.goto_line (s : State) (r : RxState) : (s.goto r).line = s.line := rfl
@[simp] theorem State.goto_ret (s : State) (r : RxState) : (s.goto r).ret = s.ret := rfl
@[simp] theorem State.goto_input (s : State) (r : RxState) : (s.goto r).input = s.input := rfl

@[simp] theorem State.endFrame_params (s : State) (ev : Event) : (s.endFrame ev).params = s.params := rfl
@[simp] theorem State.endFrame_rxState (s : State) (ev : Event) : (s.endFrame ev).rxState = .awaitDelim := rfl
@[simp] theorem State.endFrame_rxLen (s : State) (ev : Event) : (s.endFrame ev).rxLen = s.rxLen := rfl
@[simp] theorem State.endFrame_rxType (s : State) (ev : Event) : (s.endFrame ev).rxType = s.rxType := rfl
@[simp] theorem State.endFrame_rxBody (s : State) (ev : Event) : (s.endFrame ev).rxBody = s.rxBody := rfl
@[simp] theorem State.endFrame_rxCount (s : State) (ev : Event) : (s.endFrame ev).rxCount = s.rxCount := rfl
@[simp] theorem State.endFrame_rxSum (s : State) (ev : Event) : (s.endFrame ev).rxSum = s.rxSum := rfl
@[simp] theorem State.endFrame_txQueue (s : State) (ev : Event) : (s.endFrame ev).txQueue = s.txQueue := rfl
@[simp] theorem State.endFrame_txCur (s : State) (ev : Event) : (s.endFrame ev).txCur = s.txCur := rfl
@[simp] theorem State.endFrame_log (s : State) (ev : Event) : (s.endFrame ev).log = s.log ++ [ev] := rfl
@[simp] theorem State.endFrame_line (s : State) (ev : Event) : (s.endFrame ev).line = s.line := rfl
@[simp] theorem State.endFrame_ret (s : State) (ev : Event) : (s.endFrame ev).ret = s.ret := rfl
@[simp] theorem State.endFrame_input (s : State) (ev : Event) : (s.endFrame ev).input = s.input := rfl

@[simp] theorem State.clearParser_params (s : State) : (s.clearParser).params = s.params := rfl
@[simp] theorem State.clearParser_rxState (s : State) : (s.clearParser).rxState = .awaitDelim := rfl
@[simp] theorem State.clearParser_rxLen (s : State) : (s.clearParser).rxLen = 0 := rfl
@[simp] theorem State.clearParser_rxType (s : State) : (s.clearParser).rxType = 0 := rfl
@[simp] theorem State.clearParser_rxBody (s : State) : (s.clearParser).rxBody = [] := rfl
@[simp] theorem State.clearParser_rxCount (s : State) : (s.clearParser).rxCount = 0 := rfl
@[simp] theorem State.clearParser_rxSum (s : State) : (s.clearParser).rxSum = 0 := rfl
@[simp] theorem State.clearParser_txQueue (s : State) : (s.clearParser).txQueue = s.txQueue := rfl
@[simp] theorem State.clearParser_txCur (s : State) : (s.clearParser).txCur = s.txCur := rfl
@[simp] theorem State.clearParser_log (s : State) : (s.clearParser).log = s.log := rfl
@[simp] theorem State.clearParser_line (s : State) : (s.clearParser).line = s.line := rfl
@[simp] theorem State.clearParser_ret (s : State) : (s.clearParser).ret = s.ret := rfl
@[simp] theorem State.clearParser_input (s : State) : (s.clearParser).input = s.input := rfl

@[simp] theorem State.shutDown_params (s : State) : (s.shutDown).params = s.params := rfl
@[simp] theorem State.shutDown_rxState (s : State) : (s.shutDown).rxState = .idle := rfl
@[simp] theorem State.shutDown_rxLen (s : State) : (s.shutDown).rxLen = s.rxLen := rfl
@[simp] theorem State.shutDown_rxType (s : State) : (s.shutDown).rxType = s.rxType := rfl
@[simp] theorem State.shutDown_rxBody (s : State) : (s.shutDown).rxBody = s.rxBody := rfl
@[simp] theorem State.shutDown_rxCount (s : State) : (s.shutDown).rxCount = s.rxCount := rfl
@[simp] theorem State.shutDown_rxSum (s : State) : (s.shutDown).rxSum = s.rxSum := rfl
@[simp] theorem State.shutDown_txQueue (s : State) : (s.shutDown).txQueue = [] := rfl
@[simp] theorem State.shutDown_txCur (s : State) : (s.shutDown).txCur = none := rfl
@[simp] theorem State.shutDown_log (s : State) : (s.shutDown).log = s.log := rfl
@[simp] theorem State.shutDown_line (s : State) : (s.shutDown).line = s.line := rfl
@[simp] theorem State.shutDown_ret (s : State) : (s.shutDown).ret = s.ret := rfl
@[simp] theorem State.shutDown_input (s : State) : (s.shutDown).input = s.input := rfl

@[simp] theorem State.withQueue_params (s : State) (q : List TxJob) : (s.withQueue q).params = s.params := rfl
@[simp] theorem State.withQueue_rxState (s : State) (q : List TxJob) : (s.withQueue q).rxState = s.rxState := rfl
@[simp] theorem State.withQueue_rxLen (s : State) (q : List TxJob) : (s.withQueue q).rxLen = s.rxLen := rfl
@[simp] theorem State.withQueue_rxType (s : State) (q : List TxJob) : (s.withQueue q).rxType = s.rxType := rfl
@[simp] theorem State.withQueue_rxBody (s : State) (q : List TxJob) : (s.withQueue q).rxBody = s.rxBody := rfl
@[simp] theorem State.withQueue_rxCount (s : State) (q : List TxJob) : (s.withQueue q).rxCount = s.rxCount := rfl
@[simp] theorem State.withQueue_rxSum (s : State) (q : List TxJob) : (s.withQueue q).rxSum = s.rxSum := rfl
@[simp] theorem State.withQueue_txQueue (s : State) (q : List TxJob) : (s.withQueue q).txQueue = q := rfl
@[simp] theorem State.withQueue_txCur (s : State) (q : List TxJob) : (s.withQueue q).txCur = s.txCur := rfl
@[simp] theorem State.withQueue_log (s : State) (q : List TxJob) : (s.withQueue q).log = s.log := rfl
@[simp] theorem State.withQueue_line (s : State) (q : List TxJob) : (s.withQueue q).line = s.line := rfl
@[simp] theorem State.withQueue_ret (s : State) (q : List TxJob) : (s.withQueue q).ret = s.ret := rfl
@[simp] theorem State.withQueue_input (s : State) (q : List TxJob) : (s.withQueue q).input = s.input := rfl

@[simp] theorem State.enqueue_params (s : State) (q : TxRequest) (bs : Bytes) : (s.enqueue q bs).params = s.params := rfl
@[simp] theorem State.enqueue_rxState (s : State) (q : TxRequest) (bs : Bytes) : (s.enqueue q bs).rxState = s.rxState := rfl
@[simp] theorem State.enqueue_rxLen (s : State) (q : TxRequest) (bs : Bytes) : (s.enqueue q bs).rxLen = s.rxLen := rfl
@[simp] theorem State.enqueue_rxType (s : State) (q : TxRequest) (bs : Bytes) : (s.enqueue q bs).rxType = s.rxType := rfl
@[simp] theorem State.enqueue_rxBody (s : State) (q : TxRequest) (bs : Bytes) : (s.enqueue q bs).rxBody = s.rxBody := rfl
@[simp] theorem State.enqueue_rxCount (s : State) (q : TxRequest) (bs : Bytes) : (s.enqueue q bs).rxCount = s.rxCount := rfl
@[simp] theorem State.enqueue_rxSum (s : State) (q : TxRequest) (bs : Bytes) : (s.enqueue q bs).rxSum = s.rxSum := rfl
@[simp] theorem State.enqueue_txQueue (s : State) (q : TxRequest) (bs : Bytes) : (s.enqueue q bs).txQueue = s.txQueue ++ [TxJob.mk q bs] := rfl
@[simp] theorem State.enqueue_txCur (s : State) (q : TxRequest) (bs : Bytes) : (s.enqueue q bs).txCur = s.txCur := rfl
@[simp] theorem State.enqueue_log (s : State) (q : TxRequest) (bs : Bytes) : (s.enqueue q bs).log = s.log := rfl
@[simp] theorem State.enqueue_line (s : State) (q : TxRequest) (bs : Bytes) : (s.enqueue q bs).line = s.line := rfl
@[simp] theorem State.enqueue_ret (s : State) (q : TxRequest) (bs : Bytes) : (s.enqueue q bs).ret = s.ret := rfl
@[simp] theorem State.enqueue_input (s : State) (q : TxRequest) (bs : Bytes) : (s.enqueue q bs).input = s.input := rfl

@[simp] theorem State.endJob_params (s : State) (q : TxRequest) (st : ErrCode) : (s.endJob q st).params = s.params := rfl
@[simp] theorem State.endJob_rxState (s : State) (q : TxRequest) (st : ErrCode) : (s.endJob q st).rxState = s.rxState := rfl
@[simp] theorem State.endJob_rxLen (s : State) (q : TxRequest) (st : ErrCode) : (s.endJob q st).rxLen = s.rxLen := rfl
@[simp] theorem State.endJob_rxType (s : State) (q : TxRequest) (st : ErrCode) : (s.endJob q st).rxType = s.rxType := rfl
@[simp] theorem State.endJob_rxBody (s : State) (q : TxRequest) (st : ErrCode) : (s.endJob q st).rxBody = s.rxBody := rfl
@[simp] theorem State.endJob_rxCount (s : State) (q : TxRequest) (st : ErrCode) : (s.endJob q st).rxCount = s.rxCount := rfl
@[simp] theorem State.endJob_rxSum (s : State) (q : TxRequest) (st : ErrCode) : (s.endJob q st).rxSum = s.rxSum := rfl
@[simp] theorem State.endJob_txQueue (s : State) (q : TxRequest) (st : ErrCode) : (s.endJob q st).txQueue = s.txQueue := rfl
@[simp] theorem State.endJob_txCur (s : State) (q : TxRequest) (st : ErrCode) : (s.endJob q st).txCur = none := rfl
@[simp] theorem State.endJob_log (s : State) (q : TxRequest) (st : ErrCode) : (s.endJob q st).log = s.log ++ [.txDone q st] := rfl
@[simp] theorem State.endJob_line (s : State) (q : TxRequest) (st : ErrCode) : (s.endJob q st).line = s.line := rfl
@[simp] theorem State.endJob_ret (s : State) (q : TxRequest) (st : ErrCode) : (s.endJob q st).ret = s.ret := rfl
@[simp] theorem State.endJob_input (s : State) (q : TxRequest) (st : ErrCode) : (s.endJob q st).input = s.input := rfl

@[simp] theorem State.take_params (s : State) (rest : List InEvent) : (s.take rest).params = s.params := rfl
@[simp] theorem State.take_rxState (s : State) (rest : List InEvent) : (s.take rest).rxState = s.rxState := rfl
@[simp] theorem State.take_rxLen (s : State) (rest : List InEvent) : (s.take rest).rxLen = s.rxLen := rfl
@[simp] theorem State.take_rxType (s : State) (rest : List InEvent) : (s.take rest).rxType = s.rxType := rfl
@[simp] theorem State.take_rxBody (s : State) (rest : List InEvent) : (s.take rest).rxBody = s.rxBody := rfl
@[simp] theorem State.take_rxCount (s : State) (rest : List InEvent) : (s.take rest).rxCount = s.rxCount := rfl
@[simp] theorem State.take_rxSum (s : State) (rest : List InEvent) : (s.take rest).rxSum = s.rxSum := rfl
@[simp] theorem State.take_txQueue (s : State) (rest : List InEvent) : (s.take rest).txQueue = s.txQueue := rfl
@[simp] theorem State.take_txCur (s : State) (rest : List InEvent) : (s.take rest).txCur = s.txCur := rfl
@[simp] theorem State.take_log (s : State) (rest : List InEvent) : (s.take rest).log = s.log := rfl
@[simp] theorem State.take_line (s : State) (rest : List InEvent) : (s.take rest).line = s.line := rfl
@[simp] theorem State.take_ret (s : State) (rest : List InEvent) : (s.take rest).ret = none := rfl
@[simp] theorem State.take_input (s : State) (rest : List InEvent) : (s.take rest).input = rest := rfl

@[simp] theorem State.init_params (p : Params) : (State.init p).params = p := rfl
@[simp] theorem State.init_rxState (p : Params) : (State.init p).rxState = .idle := rfl
@[simp] theorem State.init_rxLen (p : Params) : (State.init p).rxLen = 0 := rfl
@[simp] theorem State.init_rxType (p : Params) : (State.init p).rxType = 0 := rfl
@[simp] theorem State.init_rxBody (p : Params) : (State.init p).rxBody = [] := rfl
@[simp] theorem State.init_rxCount (p : Params) : (State.init p).rxCount = 0 := rfl
@[simp] theorem State.init_rxSum (p : Params) : (State.init p).rxSum = 0 := rfl
@[simp] theorem State.init_txQueue (p : Params) : (State.init p).txQueue = [] := rfl
@[simp] theorem State.init_txCur (p : Params) : (State.init p).txCur = none := rfl
@[simp] theorem State.init_log (p : Params) : (State.init p).log = [] := rfl
@[simp] theorem State.init_line (p : Params) : (State.init p).line = [] := rfl
@[simp] theorem State.init_ret (p : Params) : (State.init p).ret = none := rfl
@[simp] theorem State.init_input (p : Params) : (State.init p).input = [] := rfl

end Sys2Proof.Machine
end

