-- ==== Sys2Proof/Laws/Ops.lean ====
section
/-! SUPPORT. What each shared operation of Machine/Ops.lean, Operands.lean and Flags.lean can do. -/

namespace Sys2Proof.Machine

open Sys2Proof

/-! ### Buffers -/

theorem memRead_length (buf : Bytes) (i n : Nat) : (memRead buf i n).length = min n (buf.length - i) := by
  simp [memRead]

theorem memRead_one {buf : Bytes} {i : Nat} {b : Byte} (h : buf[i]? = some b) : memRead buf i 1 = [b] := by
  obtain ⟨hi, rfl⟩ := List.getElem?_eq_some_iff.mp h
  rw [memRead, List.drop_eq_getElem_cons hi]
  rfl

theorem memRead_past {buf : Bytes} {i n : Nat} (h : buf.length ≤ i) : memRead buf i n = [] := by
  simp [memRead, List.drop_eq_nil_of_le h]

/-- Reading at the length of the first part reads the second part from its start. -/
theorem memRead_append_right (a b : Bytes) (n : Nat) : memRead (a ++ b) a.length n = b.take n := by
  simp [memRead]

/-- The stored body never holds more than its capacity (R25, R55). -/
theorem memAppend_length_le {buf : Bytes} {cap i : Nat} (b : Byte) (h : buf.length = min i cap) :
    (memAppend buf cap i b).length = min (i + 1) cap := by
  unfold memAppend
  split
  · rw [List.length_append, List.length_singleton]
    omega
  · omega

/-- What is stored below capacity is the whole sequence with its new byte. -/
theorem memAppend_room {buf : Bytes} {cap i : Nat} (b : Byte) (h : i < cap) :
    memAppend buf cap i b = buf ++ [b] := if_pos h

theorem memAppend_full {buf : Bytes} {cap i : Nat} (b : Byte) (h : cap ≤ i) : memAppend buf cap i b = buf :=
  if_neg (Nat.not_lt.mpr h)

/-- `takeZ` gives a sequence with no 0x00 (R14). -/
theorem takeZ_no_zero (s : Bytes) : ∀ b ∈ takeZ s, b ≠ 0 := by
  intro b hb
  have := List.mem_takeWhile_imp hb
  simpa using this

theorem takeZ_of_no_zero {s : Bytes} (h : ∀ b ∈ s, b ≠ 0) : takeZ s = s :=
  List.takeWhile_eq_self_iff.mpr fun b hb => by simpa using h b hb

/-- `takeZ` of a prefix with no 0x00 followed by nothing or by a 0x00 is that prefix (R14). -/
theorem takeZ_append {pre tail : Bytes} (h : ∀ b ∈ pre, b ≠ 0) (ht : tail = [] ∨ tail.head? = some 0) :
    takeZ (pre ++ tail) = pre := by
  rw [takeZ, List.takeWhile_append_of_pos fun b hb => by simpa using h b hb]
  rcases ht with rfl | ht
  · simp
  · obtain ⟨t, rfl⟩ := List.head?_eq_some_iff.mp ht
    simp

theorem takeZ_length_le (s : Bytes) : (takeZ s).length ≤ s.length :=
  (List.takeWhile_sublist _).length_le

/-! ### Operand forms -/

theorem payloadForm_iff {cap : Nat} {data : Bytes} :
    payloadForm cap data = true ↔ (∀ b ∈ data, b ≠ 0) ∧ data.length ≤ cap := by
  simp [payloadForm]

/-- Every payload cut at its first 0x00 that fits the capacity is in its form (R125, R157). -/
theorem payloadForm_takeZ {cap : Nat} {s : Bytes} (h : (takeZ s).length ≤ cap) : payloadForm cap (takeZ s) = true :=
  payloadForm_iff.mpr ⟨takeZ_no_zero s, h⟩

/-! ### Places of the machine -/

theorem connected_iff (s : State) : s.connected = true ↔ s.rxState ≠ .idle := by simp [State.connected]

theorem partialFrame_iff (s : State) :
    s.partialFrame = true ↔
      s.rxState = .lenHi ∨ s.rxState = .lenLo ∨ s.rxState = .type ∨ s.rxState = .body ∨ s.rxState = .cksum := by
  unfold State.partialFrame
  split <;> simp_all

theorem queueFull_iff (s : State) : s.queueFull = true ↔ s.params.txqDepth = .atMost s.txQueue.length := by
  unfold State.queueFull
  cases s.params.txqDepth <;> simp [eq_comm]

/-- The work a transmit event acts on: there is none, it is the job in flight, or it is the head of the
queue (R183, R184). -/
theorem nextWork_cases (s : State) :
    (s.nextWork = none ∧ s.txCur = none ∧ s.txQueue = []) ∨
    (∃ w, s.nextWork = some (w, s.txQueue) ∧ s.txCur = some w) ∨
    (∃ j js, s.nextWork = some ({ req := j.req, bytes := j.bytes, idx := 0 }, js) ∧ s.txCur = none ∧
      s.txQueue = j :: js) := by
  unfold State.nextWork
  rcases hc : s.txCur with _ | w
  · rcases hq : s.txQueue with _ | ⟨j, js⟩
    · exact .inl ⟨rfl, rfl, rfl⟩
    · exact .inr (.inr ⟨j, js, rfl, rfl, rfl⟩)
  · exact .inr (.inl ⟨w, rfl, rfl⟩)

/-! ### The decode tests -/

/-- All four tests of DECODE_RX pass exactly when the checksum is right or not verified, the type is 0x90
and the length leaves room for the fixed fields and fits the capacity (R157). -/
theorem decodeVerdict_ok_iff (p : Params) (t : Byte) (len : Word16) (sum ck : Byte) :
    decodeVerdict p t len sum ck = .ok ↔
      (p.verifyChecksum = true → sum + ck = 0xFF) ∧ t = 0x90 ∧ 11 ≤ len.toNat - 1 ∧
        len.toNat - 1 ≤ p.rxBodyCap := by
  have hcap : p.rxBodyCap = 11 + p.cap := rfl
  unfold decodeVerdict
  by_cases h1 : p.verifyChecksum = true ∧ sum + ck ≠ 0xFF
  · rw [if_pos h1]
    simp only [reduceCtorEq, false_iff]
    exact fun h => h1.2 (h.1 h1.1)
  · have h1' : p.verifyChecksum = true → sum + ck = 0xFF := fun hv => by_contra fun h => h1 ⟨hv, h⟩
    rw [if_neg h1]
    by_cases h2 : t = 0x90
    · rw [if_neg (not_not_intro h2)]
      by_cases h3 : len.toNat - 1 < 11
      · rw [if_pos h3]
        simp only [reduceCtorEq, false_iff]
        omega
      · rw [if_neg h3]
        by_cases h4 : p.cap < len.toNat - 1 - 11
        · rw [if_pos h4]
          simp only [reduceCtorEq, false_iff]
          omega
        · rw [if_neg h4]
          exact iff_of_true rfl ⟨h1', h2, by omega, by omega⟩
    · rw [if_pos h2]
      simp only [reduceCtorEq, false_iff]
      exact fun h => h2 h.2.1

/-- A failed test names a decode error (R210). -/
theorem decodeVerdict_class (p : Params) (t : Byte) (len : Word16) (sum ck : Byte) :
    decodeVerdict p t len sum ck = .ok ∨ (decodeVerdict p t len sum ck).errClass = .decode := by
  unfold decodeVerdict
  repeat' split
  all_goals simp [ErrCode.errClass]

end Sys2Proof.Machine
end

