-- ==== Sys2Proof/Laws/Codec.lean ====
section
/-! SUPPORT. The codec and the frame layouts: lengths, sums, and the digits of a hex text. -/

namespace Sys2Proof.Machine

open Sys2Proof

@[simp] theorem enc16_length (v : Word16) : (enc16 v).length = 2 := rfl

@[simp] theorem enc64_length (v : Word64) : (enc64 v).length = 8 := rfl

theorem byteSum_append (a b : Bytes) : byteSum (a ++ b) = byteSum a + byteSum b := by
  simp [byteSum, BitVec.ofNat_add]

theorem byteSum_cons (b : Byte) (s : Bytes) : byteSum (b :: s) = b + byteSum s := by
  simp [byteSum, BitVec.ofNat_add]

@[simp] theorem byteSum_nil : byteSum [] = 0 := rfl

theorem byteSum_toNat (s : Bytes) : (byteSum s).toNat = (s.map BitVec.toNat).sum % 256 := by
  simp [byteSum]

/-- The sum of the summed bytes and their checksum is 0xFF (R107). -/
theorem byteSum_add_checksum (s : Bytes) : byteSum s + checksum s = 0xFF := by
  unfold checksum
  generalize byteSum s = x
  bv_omega

theorem dec16_pair (a b : Byte) : dec16 [a, b] = some (a ++ b) := rfl

theorem dec16_isSome_iff (s : Bytes) : (dec16 s).isSome = true ↔ s.length = 2 := by
  rcases s with _ | ⟨a, _ | ⟨b, _ | ⟨c, s⟩⟩⟩ <;> simp [dec16]

theorem dec64_isSome_iff (s : Bytes) : (dec64 s).isSome = true ↔ s.length = 8 := by
  rcases s with _ | ⟨a, _ | ⟨b, _ | ⟨c, _ | ⟨d, _ | ⟨e, _ | ⟨f, _ | ⟨g, _ | ⟨h, _ | ⟨i, s⟩⟩⟩⟩⟩⟩⟩⟩⟩ <;>
    simp [dec64]

/-- The bytes of a u16 put together again (the value both laws of R104 rest on). -/
theorem halves_append (v : Word16) : v.extractLsb' 8 8 ++ v.extractLsb' 0 8 = v := by
  ext i hi
  simp only [BitVec.getElem_append, BitVec.getElem_extractLsb']
  split
  · simp [BitVec.getLsbD_eq_getElem hi]
  · rw [show 8 + (i - 8) = i by omega, BitVec.getLsbD_eq_getElem hi]

/-- The bytes of a u64 put together again (the value both laws of R105 rest on). -/
theorem octets_append (v : Word64) :
    v.extractLsb' 56 8 ++ v.extractLsb' 48 8 ++ v.extractLsb' 40 8 ++ v.extractLsb' 32 8 ++
      v.extractLsb' 24 8 ++ v.extractLsb' 16 8 ++ v.extractLsb' 8 8 ++ v.extractLsb' 0 8 = v := by
  have step : ∀ {n : Nat} (x : BitVec n), ∀ k w, x.extractLsb' (k + 8) w ++ x.extractLsb' k 8 =
      x.extractLsb' k (w + 8) := by
    intro n x k w
    ext i hi
    simp only [BitVec.getElem_append, BitVec.getElem_extractLsb']
    split
    · rfl
    · rw [show k + 8 + (i - 8) = k + i by omega]
  have h1 := step v 48 8
  have h2 := step v 40 16
  have h3 := step v 32 24
  have h4 := step v 24 32
  have h5 := step v 16 40
  have h6 := step v 8 48
  have h7 := step v 0 56
  simp only [Nat.reduceAdd] at h1 h2 h3 h4 h5 h6 h7
  rw [h1, h2, h3, h4, h5, h6, h7]
  ext i hi
  simp

theorem txBody_length (q : TxRequest) : (txBody q).length = 14 + q.data.length := by
  simp [txBody]
  omega

theorem rxBody_length (f : RxFrame) : (rxBody f).length = 12 + f.data.length := by
  simp [rxBody]
  omega

/-- A serialized frame holds four bytes besides its body (R70). -/
theorem serialize_length (f : Frame) : (serialize f).length = (frameBody f).length + 4 := by
  simp [serialize]
  omega

theorem serialize_ne_nil (f : Frame) : serialize f ≠ [] := by
  intro h
  simpa [h] using serialize_length f

/-- The derived length of a frame whose payload fits the bound of R129 does not wrap. -/
theorem frameLength_toNat {f : Frame} {cap : Fin 65522} (h : frameForm cap.val f = true) :
    (frameLength f).toNat = (frameBody f).length := by
  have hcap := cap.isLt
  cases f with
  | rx f =>
    have := (payloadForm_iff.mp h).2
    simp only [frameLength, frameBody, rxBody_length, BitVec.toNat_ofNat, Config.rxFixed]
    omega
  | tx q =>
    have := (payloadForm_iff.mp h).2
    simp only [frameLength, frameBody, txBody_length, BitVec.toNat_ofNat, Config.txFixed]
    omega

/-- The octets of a text one after another (R109). -/
theorem hexOctets_cons (sep : Bool) (b : Byte) (s : Bytes) (h : s ≠ []) :
    hexOctets sep (b :: s) = hex2 b ++ (if sep then [space] else []) ++ hexOctets sep s := by
  cases s with
  | nil => exact absurd rfl h
  | cons c r => rfl

end Sys2Proof.Machine
end

