-- ==== Sys2Proof/Laws/Decode.lean ====
section
/-! SUPPORT. Each reader of Decode.lean against the bytes its encoder writes, in both directions. -/

namespace Sys2Proof

open Sys2Proof.Machine

@[simp] theorem readU8_cons (b : Byte) (r : Bytes) : readU8 (b :: r) = some (b, r) := rfl

@[simp] theorem readU16_putU16 (v : Word16) (r : Bytes) : readU16 (putU16 v ++ r) = some (v, r) := by
  show some (v.extractLsb' 8 8 ++ v.extractLsb' 0 8, r) = _
  rw [halves_append]

@[simp] theorem readU64_putU64 (v : Word64) (r : Bytes) : readU64 (putU64 v ++ r) = some (v, r) := by
  show some (v.extractLsb' 56 8 ++ v.extractLsb' 48 8 ++ v.extractLsb' 40 8 ++ v.extractLsb' 32 8 ++
      v.extractLsb' 24 8 ++ v.extractLsb' 16 8 ++ v.extractLsb' 8 8 ++ v.extractLsb' 0 8, r) = _
  rw [octets_append]

@[simp] theorem readBool_putBool (x : Bool) (r : Bytes) : readBool (putBool x ++ r) = some (x, r) := by
  cases x <;> rfl

@[simp] theorem readSeq_putSeq (bs r : Bytes) : readSeq (putSeq bs ++ r) = some (bs, r) := by
  induction bs with
  | nil => cases r <;> rfl
  | cons b bs ih =>
    show (if (1 : Byte) = 0 then _ else if (1 : Byte) = 1 then _ else _) = _
    rw [if_neg (by decide), if_pos rfl]
    show (readSeq (putSeq bs ++ r)).map _ = _
    rw [ih]
    rfl

@[simp] theorem readMode_putMode (m : HexMode) (r : Bytes) : readMode (putMode m ++ r) = some (m, r) := by
  cases m <;> rfl

theorem readFixed_append {n : Nat} {bs : Bytes} (h : bs.length = n) (r : Bytes) :
    readFixed n (bs ++ r) = some (bs, r) := by
  subst h
  simp [readFixed]

@[simp] theorem readTx_putTx (q : TxRequest) (r : Bytes) : readTx (putTx q ++ r) = some (q, r) := by
  simp [readTx, putTx]

@[simp] theorem readRx_putRx (f : RxFrame) (r : Bytes) : readRx (putRx f ++ r) = some (f, r) := by
  simp [readRx, putRx]

@[simp] theorem readFrame_putFrame (f : Frame) (r : Bytes) : readFrame (putFrame f ++ r) = some (f, r) := by
  cases f with
  | rx f =>
    have h : readBool (0#8 :: (putRx f ++ r)) = some (false, putRx f ++ r) := rfl
    simp [readFrame, putFrame, h]
  | tx q =>
    have h : readBool (1#8 :: (putTx q ++ r)) = some (true, putTx q ++ r) := rfl
    simp [readFrame, putFrame, h]

/-! The same where nothing follows, as at the end of a command word. -/

@[simp] theorem readU16_putU16_end (v : Word16) : readU16 (putU16 v) = some (v, []) := by
  simpa using readU16_putU16 v []

@[simp] theorem readU64_putU64_end (v : Word64) : readU64 (putU64 v) = some (v, []) := by
  simpa using readU64_putU64 v []

@[simp] theorem readBool_putBool_end (x : Bool) : readBool (putBool x) = some (x, []) := by
  simpa using readBool_putBool x []

@[simp] theorem readSeq_putSeq_end (bs : Bytes) : readSeq (putSeq bs) = some (bs, []) := by
  simpa using readSeq_putSeq bs []

@[simp] theorem readMode_putMode_end (m : HexMode) : readMode (putMode m) = some (m, []) := by
  simpa using readMode_putMode m []

@[simp] theorem readTx_putTx_end (q : TxRequest) : readTx (putTx q) = some (q, []) := by
  simpa using readTx_putTx q []

@[simp] theorem readRx_putRx_end (f : RxFrame) : readRx (putRx f) = some (f, []) := by
  simpa using readRx_putRx f []

@[simp] theorem readFrame_putFrame_end (f : Frame) : readFrame (putFrame f) = some (f, []) := by
  simpa using readFrame_putFrame f []

theorem readFixed_end {n : Nat} {bs : Bytes} (h : bs.length = n) : readFixed n bs = some (bs, []) := by
  simpa using readFixed_append h []

/-- A command word whose reader reads all of it decodes to what it reads (R81). -/
theorem decodeCommand_of_reader {op : Byte} {w : Bytes} {rd : Reader Instr} {i : Instr}
    (hop : operandReader op = some rd) (h : rd w = some (i, [])) : decodeCommand (op :: w) = .ok i := by
  simp [decodeCommand, hop, h]

/-! The other direction: what a reader accepts is what its encoder writes, followed by the rest. -/

/-- The low byte of an append. -/
theorem octet_low {n : Nat} (x : BitVec n) (y : Byte) : (x ++ y).extractLsb' 0 8 = y := by
  ext i hi
  simp [BitVec.getLsbD_append, hi]

/-- The bits of an append above its low byte. -/
theorem octets_high {n : Nat} (x : BitVec n) (y : Byte) (k w : Nat) :
    (x ++ y).extractLsb' (k + 8) w = x.extractLsb' k w := by
  ext i hi
  simp only [BitVec.getElem_extractLsb', BitVec.getLsbD_append]
  rw [if_neg (by omega)]
  congr 1
  omega

theorem readU8_eq {bs r : Bytes} {b : Byte} (h : readU8 bs = some (b, r)) : bs = b :: r := by
  cases bs <;> simp_all [readU8]

theorem putU16_append (a b : Byte) : putU16 (a ++ b) = [a, b] := by
  simp [putU16, octet_low, octets_high]

theorem putU64_append (a b c d e f g h : Byte) :
    putU64 (a ++ b ++ c ++ d ++ e ++ f ++ g ++ h) = [a, b, c, d, e, f, g, h] := by
  have high : ∀ {n : Nat} (x : BitVec n) (y : Byte) (k : Nat), 8 ≤ k →
      (x ++ y).extractLsb' k 8 = x.extractLsb' (k - 8) 8 := by
    intro n x y k hk
    obtain ⟨k, rfl⟩ := Nat.exists_eq_add_of_le' hk
    exact octets_high x y k 8
  simp [putU64, octet_low, high]

theorem readU16_eq {bs r : Bytes} {v : Word16} (h : readU16 bs = some (v, r)) : bs = putU16 v ++ r := by
  rcases bs with _ | ⟨a, _ | ⟨b, bs⟩⟩ <;> simp only [readU16, Option.some.injEq, Prod.mk.injEq, reduceCtorEq] at h
  obtain ⟨rfl, rfl⟩ := h
  rw [putU16_append]
  rfl

theorem readU64_eq {bs r : Bytes} {v : Word64} (h : readU64 bs = some (v, r)) : bs = putU64 v ++ r := by
  rcases bs with _ | ⟨a, _ | ⟨b, _ | ⟨c, _ | ⟨d, _ | ⟨e, _ | ⟨f, _ | ⟨g, _ | ⟨i, bs⟩⟩⟩⟩⟩⟩⟩⟩ <;>
    simp only [readU64, Option.some.injEq, Prod.mk.injEq, reduceCtorEq] at h
  obtain ⟨rfl, rfl⟩ := h
  rw [putU64_append]
  rfl

theorem readBool_eq {bs r : Bytes} {x : Bool} (h : readBool bs = some (x, r)) : bs = putBool x ++ r := by
  rcases bs with _ | ⟨b, bs⟩
  · simp [readBool] at h
  · simp only [readBool] at h
    split at h
    · obtain ⟨rfl, rfl⟩ := by simpa using h
      simp_all [putBool]
    · split at h
      · obtain ⟨rfl, rfl⟩ := by simpa using h
        simp_all [putBool]
      · simp at h

theorem readMode_eq {bs r : Bytes} {m : HexMode} (h : readMode bs = some (m, r)) : bs = putMode m ++ r := by
  rcases bs with _ | ⟨b, bs⟩
  · simp [readMode] at h
  · simp only [readMode] at h
    split at h
    · obtain ⟨rfl, rfl⟩ := by simpa using h
      simp_all [putMode]
    · split at h
      · obtain ⟨rfl, rfl⟩ := by simpa using h
        simp_all [putMode]
      · split at h
        · obtain ⟨rfl, rfl⟩ := by simpa using h
          simp_all [putMode]
        · simp at h

theorem readSeq_eq : ∀ {bs r x : Bytes}, readSeq bs = some (x, r) → bs = putSeq x ++ r
  | [], _, _, h => by simp [readSeq] at h
  | [t], r, x, h => by
    simp only [readSeq] at h
    split at h
    · obtain ⟨rfl, rfl⟩ := by simpa using h
      simp_all [putSeq]
    · simp at h
  | t :: b :: bs, r, x, h => by
    simp only [readSeq] at h
    split at h
    · obtain ⟨rfl, rfl⟩ := by simpa using h
      simp_all [putSeq]
    · split at h
      · rcases hr : readSeq bs with _ | ⟨y, r'⟩
        · simp [hr] at h
        · obtain ⟨rfl, rfl⟩ := by simpa [hr] using h
          rw [readSeq_eq hr]
          simp_all [putSeq]
      · simp at h

theorem readFixed_eq {n : Nat} {bs r x : Bytes} (h : readFixed n bs = some (x, r)) :
    bs = x ++ r ∧ x.length = n := by
  unfold readFixed at h
  split at h
  · simp at h
  · obtain ⟨rfl, rfl⟩ := by simpa using h
    exact ⟨(List.take_append_drop n bs).symm, by rw [List.length_take]; omega⟩

end Sys2Proof
end

