-- ==== Sys2Proof/Laws/Parser.lean ====
section
/-! SUPPORT. What DECODE_RX, a dispatch and a received byte can do. -/

namespace Sys2Proof.Machine

open Sys2Proof

/-- The payload of a decoded record is in its form, whatever the body (R32). -/
theorem payloadOr_form (cap : Nat) (s free : Bytes) : payloadForm cap (payloadOr cap (takeZ s) free) = true := by
  unfold payloadOr
  split
  · exact payloadForm_takeZ ‹_›
  · exact payloadForm_iff.mpr
      ⟨fun b hb => takeZ_no_zero free b (List.mem_of_mem_take hb), List.length_take_le cap (takeZ free)⟩

/-- A payload that fits is itself. -/
theorem payloadOr_fits {cap : Nat} {data : Bytes} (free : Bytes) (h : data.length ≤ cap) : payloadOr cap data free = data :=
  if_pos h

/-- Every record that DECODE_RX returns is in its form (R32). -/
theorem readRecord_form (p : Params) (t : Byte) (len : Word16) (body : Bytes) (sum ck : Byte) :
    recordForm p.cap (readRecord p t len body sum ck) = true :=
  payloadOr_form ..

/-- The fields at their places, where the body holds them and its payload fits (R157): no open value is read. -/
theorem readRecord_fields {p : Params} {t : Byte} {len : Word16} {body : Bytes} {sum ck : Byte} {a64 : Word64}
    {a16 : Word16} {o : Byte} (h64 : dec64 (memRead body 0 8) = some a64) (h16 : dec16 (memRead body 8 2) = some a16)
    (ho : body[10]? = some o) (hd : (takeZ (memRead body 11 (body.length - 11))).length ≤ p.cap) :
    readRecord p t len body sum ck =
      { src64 := a64, src16 := a16, options := o, data := takeZ (memRead body 11 (body.length - 11)),
        rxLength := len, rxChecksum := ck } := by
  simp only [readRecord, h64, h16, ho, payloadOr_fits _ hd, Option.getD_some]

/-- DECODE_RX has no value exactly where `L` = 0 (R157). -/
theorem decodeRx_eq_none_iff (p : Params) (t : Byte) (len : Word16) (body : Bytes) (sum ck : Byte) :
    decodeRx p t len body sum ck = none ↔ len = 0 := by
  unfold decodeRx
  split
  · simp_all
  · split <;> simp_all

/-- What DECODE_RX answers where it has a value: the error of the first failed test, or the record of a body
whose tests all pass, with its payload in its form (R157, R32). -/
theorem decodeRx_cases {p : Params} {t : Byte} {len : Word16} {body : Bytes} {sum ck : Byte} {v : Value}
    (h : decodeRx p t len body sum ck = some v) :
    (∃ e, v = .err e ∧ e = decodeVerdict p t len sum ck ∧ e.errClass = .decode) ∨
    (∃ r, v = .decoded r ∧ r = readRecord p t len body sum ck ∧ decodeVerdict p t len sum ck = .ok ∧
      recordForm p.cap r = true) := by
  unfold decodeRx at h
  split at h
  · simp at h
  · split at h
    · exact .inr ⟨_, by simpa using h.symm, rfl, ‹_›, readRecord_form ..⟩
    · rename_i hne
      refine .inl ⟨_, by simpa using h.symm, rfl, ?_⟩
      exact (decodeVerdict_class p t len sum ck).resolve_left fun h0 => hne h0

/-- A dispatch has an event exactly where DECODE_RX has a value (R156). -/
theorem dispatchEvent_decodeRx (p : Params) (t : Byte) (len : Word16) (body : Bytes) (sum ck : Byte) :
    dispatchEvent (decodeRx p t len body sum ck) = none ↔ decodeRx p t len body sum ck = none := by
  rcases h : decodeRx p t len body sum ck with _ | v
  · simp [dispatchEvent]
  · rcases decodeRx_cases h with ⟨e, rfl, -⟩ | ⟨r, rfl, -⟩ <;> simp [dispatchEvent]

/-- Everything a received byte can do when it gives a next state (R150 to R156). -/
theorem receive_cases {b : Byte} {s t : State} (h : receive b s = .next t) :
    (s.rxState = .idle ∧ t = s) ∨
    (s.rxState = .awaitDelim ∧ t = rxAwaitDelim b s) ∨
    (s.rxState = .lenHi ∧ t = rxLenHi b s) ∨
    (s.rxState = .lenLo ∧ t = rxLenLo b s) ∨
    (s.rxState = .type ∧ t = rxType b s) ∨
    (s.rxState = .body ∧ t = rxBodyByte b s) ∨
    (s.rxState = .cksum ∧ ∃ ev, t = s.endFrame ev ∧
      dispatchEvent (decodeRx s.params s.rxType s.rxLen s.rxBody s.rxSum b) = some ev) := by
  unfold receive rxCksum at h
  cases hs : s.rxState
  case cksum =>
    rw [hs] at h
    dsimp only at h
    split at h
    · rename_i ev hev
      refine .inr (.inr (.inr (.inr (.inr (.inr ⟨rfl, ev, ?_, hev⟩)))))
      simpa using h.symm
    · simp at h
  all_goals
    rw [hs] at h
    simpa [eq_comm] using h

end Sys2Proof.Machine
end

