-- ==== Sys2Proof/Laws/Step.lean ====
section
/-! SUPPORT. What a step can do, and that the input waiting behind an operation does not matter to it. -/

namespace Sys2Proof.Machine

open Sys2Proof

/-- A step that gives a next state took the head of the input and executed what it decodes to (R5). -/
theorem step_next {s t : State} (h : step s = .next t) :
    ∃ ev rest i, s.input = ev :: rest ∧ decode s.rxState.wirePlace ev = .ok i ∧
      exec i (s.take rest) = .next t := by
  unfold step fetch at h
  rcases hin : s.input with _ | ⟨ev, rest⟩
  · simp [hin] at h
  · simp only [hin] at h
    rcases hd : decode s.rxState.wirePlace ev with e | i
    · cases e <;> simp [hd] at h
    · exact ⟨ev, rest, i, rfl, hd, by simpa [hd] using h⟩

/-- A step of a state whose next event decodes is that operation (R5). -/
theorem step_of_decode {s : State} {ev : InEvent} {rest : List InEvent} {i : Instr}
    (hin : s.input = ev :: rest) (hd : decode s.rxState.wirePlace ev = .ok i) :
    step s = exec i (s.take rest) := by
  simp [step, fetch, hin, hd]

/-- An outcome with its next state's input replaced. -/
def withInput (x : List InEvent) (o : Result) : Result :=
  match o with
  | .next t => .next { t with input := x }
  | .fault f => .fault f
  | .refused r => .refused r

/-- A received byte neither reads nor changes the events waiting behind it. -/
theorem receive_withInput (b : Byte) (s : State) (x : List InEvent) :
    receive b { s with input := x } = withInput x (receive b s) := by
  obtain ⟨p, r, len, ty, body, cnt, sum, q, cur, log, line, ret, inp⟩ := s
  cases r
  case awaitDelim => dsimp only [receive, rxAwaitDelim, withInput]; split <;> rfl
  case type => dsimp only [receive, rxType, withInput]; split <;> [rfl; (split <;> rfl)]
  case body => dsimp only [receive, rxBodyByte, withInput]; split <;> rfl
  case cksum => dsimp only [receive, rxCksum, withInput]; split <;> simp_all [State.endFrame, State.emit, State.goto]
  all_goals rfl

/-- No operation reads or changes the events waiting behind it (R62: their order is the environment's). -/
theorem exec_withInput (i : Instr) (s : State) (x : List InEvent) :
    exec i { s with input := x } = withInput x (exec i s) := by
  obtain ⟨p, r, len, ty, body, cnt, sum, q, cur, log, line, ret, inp⟩ := s
  cases i
  case rxByte => exact receive_withInput ..
  case frameDelimiter => exact receive_withInput ..
  case rxPacket => exact receive_withInput ..
  case txRequest => exact receive_withInput ..
  case unrecognizedType => exact receive_withInput ..
  case connect => rw [exec, exec, execConnect, execConnect, apply_ite (withInput x), apply_ite (withInput x)]; rfl
  case stop => rw [exec, exec, execStop, execStop, apply_ite (withInput x)]; rfl
  case send =>
    rw [exec, exec, execSend, execSend, apply_ite (withInput x), apply_ite (withInput x),
      apply_ite (withInput x)]
    rfl
  case rxError => dsimp only [exec, execRxError]; split <;> rfl
  case rxTimeout => rw [exec, exec, execRxTimeout, execRxTimeout, apply_ite (withInput x)]; rfl
  case txByte =>
    dsimp only [exec, execTxByte]
    cases cur with
    | some w =>
      dsimp only [State.nextWork]
      split <;> [(split <;> rfl); rfl]
    | none =>
      cases q with
      | nil => rfl
      | cons j js =>
        dsimp only [State.nextWork]
        split <;> [(split <;> rfl); rfl]
  case txError =>
    dsimp only [exec, execTxError]
    cases cur with
    | some w => rfl
    | none => cases q <;> rfl
  case beDec16 => dsimp only [exec, execBeDec16]; split <;> rfl
  case beDec64 => dsimp only [exec, execBeDec64]; split <;> rfl
  case txSetData => dsimp only [exec, execTxSetData]; split <;> [(split <;> rfl); rfl]
  case frameLength => dsimp only [exec, execFrameLength]; split <;> rfl
  case frameChecksum => dsimp only [exec, execFrameChecksum]; split <;> rfl
  case serializeTx => dsimp only [exec, execSerializeTx]; split <;> rfl
  case serializeRx => dsimp only [exec, execSerializeRx]; split <;> rfl
  case hexFrame => dsimp only [exec, execHexFrame]; split <;> rfl
  case decodeRx => dsimp only [exec, execDecodeRx]; split <;> rfl
  all_goals rfl

/-- Running operations one after another is running their first part and then the rest. -/
theorem runOps_append (a b : List Instr) (s : State) :
    runOps (a ++ b) s = match runOps a s with
      | .next t => runOps b t
      | .fault f => .fault f
      | .refused r => .refused r := by
  induction a generalizing s with
  | nil => rfl
  | cons i a ih =>
    simp only [List.cons_append, runOps]
    cases runOp i s <;> simp [ih]

/-- One received byte of an RXS, and the rest of it (R84). -/
theorem rxs_cons (b : Byte) (bs : Bytes) (s : State) :
    rxs (b :: bs) s = match receive b (s.take s.input) with
      | .next t => rxs bs t
      | .fault f => .fault f
      | .refused r => .refused r := rfl

end Sys2Proof.Machine
end

