-- ==== Sys2Proof/Laws/Inv.lean ====
section
/-! SUPPORT. The invariant's parts as propositions. -/

namespace Sys2Proof.Machine

open Sys2Proof

theorem bodyForm_iff (s : State) :
    bodyForm s = true ↔ s.rxBody.length = min s.rxCount.toNat s.params.rxBodyCap ∧
      (s.rxCount.toNat ≤ s.params.rxBodyCap → s.rxSum = byteSum (s.rxType :: s.rxBody)) := by
  simp only [bodyForm, Bool.and_eq_true, Bool.or_eq_true, decide_eq_true_eq, ← Nat.not_lt, imp_iff_not_or, not_not]

theorem rxInv_body {s : State} (h : s.rxState = .body) :
    s.rxInv = true ↔ 2 ≤ s.rxLen.toNat ∧ s.rxCount.toNat < s.rxLen.toNat - 1 ∧ bodyForm s = true := by
  simp [State.rxInv, h, and_assoc]

theorem rxInv_cksum {s : State} (h : s.rxState = .cksum) :
    s.rxInv = true ↔ 1 ≤ s.rxLen.toNat ∧ s.rxCount.toNat = s.rxLen.toNat - 1 ∧ bodyForm s = true := by
  simp [State.rxInv, h, and_assoc]

theorem rxInv_elsewhere {s : State} (h : s.rxState ≠ .body) (h' : s.rxState ≠ .cksum) : s.rxInv = true := by
  unfold State.rxInv
  split <;> simp_all

theorem jobForm_iff (cap : Nat) (j : TxJob) :
    jobForm cap j = true ↔ txForm cap j.req = true ∧ j.bytes = serializeTx j.req := by
  simp [jobForm]

theorem workForm_iff (cap : Nat) (w : TxWork) :
    workForm cap w = true ↔
      txForm cap w.req = true ∧ w.bytes = serializeTx w.req ∧ w.idx < w.bytes.length := by
  simp [workForm, and_assoc]

theorem depthForm_iff (s : State) :
    s.depthForm = true ↔ ∀ n, s.params.txqDepth = .atMost n → s.txQueue.length ≤ n := by
  unfold State.depthForm
  cases s.params.txqDepth <;> simp

theorem txInv_iff (s : State) :
    s.txInv = true ↔ (s.rxState = .idle → s.txQueue = [] ∧ s.txCur = none) ∧
      (∀ j ∈ s.txQueue, jobForm s.params.cap j = true) ∧
      (∀ w, s.txCur = some w → workForm s.params.cap w = true) ∧
      (∀ n, s.params.txqDepth = .atMost n → s.txQueue.length ≤ n) := by
  have hc : s.txCur.all (workForm s.params.cap) = true ↔
      ∀ w, s.txCur = some w → workForm s.params.cap w = true := by
    cases s.txCur <;> simp
  simp only [State.txInv, Bool.and_eq_true, depthForm_iff, hc, Bool.or_eq_true, connected_iff, List.isEmpty_iff,
    Option.isNone_iff_eq_none, List.all_eq_true, imp_iff_not_or (a := s.rxState = .idle), ne_eq, and_assoc]

/-- A serialized job's bytes are not empty (R131). -/
theorem serializeTx_ne_nil (q : TxRequest) : serializeTx q ≠ [] := serialize_ne_nil _

/-- The invariant does not look at the input, the line or the value returned. -/
theorem Inv_take {s : State} (h : s.Inv) (rest : List InEvent) : (s.take rest).Inv := h

theorem Inv_returns {s : State} (h : s.Inv) (v : Value) : (s.returns v).Inv := h

end Sys2Proof.Machine
end

