-- ==== Sys2Proof/Laws/PerInstr.lean ====
section
/-! SUPPORT. The family `OpcodeByte`: every instruction's encoding begins with the byte the opcode table gives its row
(spec/30_encoding.md R81, R71, R78), and a command's byte is one the decoder knows. One lemma a constructor. -/

namespace Sys2Proof.Laws.OpcodeByte

open Sys2Proof

/-- The byte the opcode table gives the instruction's row: the code of a command (R81), the byte of a wire row (R71,
R78). -/
def code (i : Instr) : Byte :=
  match i with
  | .connect _ => 0x01
  | .stop => 0x02
  | .send _ => 0x03
  | .rxByte _ => 0x04
  | .rxError => 0x05
  | .rxTimeout => 0x06
  | .txByte => 0x07
  | .txError => 0x08
  | .beEnc8 _ => 0x10
  | .beEnc16 _ => 0x11
  | .beEnc64 _ => 0x12
  | .beDec16 _ => 0x13
  | .beDec64 _ => 0x14
  | .byteSum _ => 0x15
  | .checksum _ => 0x16
  | .hexText _ _ _ => 0x17
  | .txNew0 => 0x18
  | .txNew1 _ => 0x19
  | .txNew2 _ _ => 0x1A
  | .txSetData _ _ => 0x1B
  | .rxNew0 => 0x1C
  | .rxNew1 _ => 0x1D
  | .rxNew2 _ _ => 0x1E
  | .frameLength _ => 0x1F
  | .frameChecksum _ => 0x20
  | .serializeTx _ => 0x21
  | .serializeRx _ => 0x22
  | .hexFrame _ _ => 0x23
  | .decodeRx _ _ _ _ _ => 0x24
  | .frameDelimiter => 0x7E
  | .rxPacket => 0x90
  | .txRequest => 0x10
  | .unrecognizedType t => t

/-- The encoding begins with the row's byte; a command's byte has an operand record and is read anywhere in a frame,
and a wire row's byte is named by its place in a frame. -/
def Statement (i : Instr) : Prop :=
  match encode i with
  | .command w => w.head? = some (code i) ∧ (operandReader (code i)).isSome = true ∧ i.place = .elsewhere
  | .wire b => b = code i ∧ i.place ≠ .elsewhere

theorem connect (x : Bool) : Statement (.connect x) := ⟨rfl, rfl, rfl⟩
theorem stop : Statement .stop := ⟨rfl, rfl, rfl⟩
theorem send (q : TxRequest) : Statement (.send q) := ⟨rfl, rfl, rfl⟩
theorem rxByte (b : Byte) : Statement (.rxByte b) := ⟨rfl, rfl, rfl⟩
theorem rxError : Statement .rxError := ⟨rfl, rfl, rfl⟩
theorem rxTimeout : Statement .rxTimeout := ⟨rfl, rfl, rfl⟩
theorem txByte : Statement .txByte := ⟨rfl, rfl, rfl⟩
theorem txError : Statement .txError := ⟨rfl, rfl, rfl⟩
theorem beEnc8 (v : Byte) : Statement (.beEnc8 v) := ⟨rfl, rfl, rfl⟩
theorem beEnc16 (v : Word16) : Statement (.beEnc16 v) := ⟨rfl, rfl, rfl⟩
theorem beEnc64 (v : Word64) : Statement (.beEnc64 v) := ⟨rfl, rfl, rfl⟩
theorem beDec16 (bs : Bytes) : Statement (.beDec16 bs) := ⟨rfl, rfl, rfl⟩
theorem beDec64 (bs : Bytes) : Statement (.beDec64 bs) := ⟨rfl, rfl, rfl⟩
theorem byteSum (bs : Bytes) : Statement (.byteSum bs) := ⟨rfl, rfl, rfl⟩
theorem checksum (bs : Bytes) : Statement (.checksum bs) := ⟨rfl, rfl, rfl⟩
theorem hexText (bs : Bytes) (sep : Bool) (trail : Bool) : Statement (.hexText bs sep trail) := ⟨rfl, rfl, rfl⟩
theorem txNew0 : Statement .txNew0 := ⟨rfl, rfl, rfl⟩
theorem txNew1 (a : Word64) : Statement (.txNew1 a) := ⟨rfl, rfl, rfl⟩
theorem txNew2 (a : Word64) (c : Word16) : Statement (.txNew2 a c) := ⟨rfl, rfl, rfl⟩
theorem txSetData (q : TxRequest) (bs : Bytes) : Statement (.txSetData q bs) := ⟨rfl, rfl, rfl⟩
theorem rxNew0 : Statement .rxNew0 := ⟨rfl, rfl, rfl⟩
theorem rxNew1 (a : Word64) : Statement (.rxNew1 a) := ⟨rfl, rfl, rfl⟩
theorem rxNew2 (a : Word64) (c : Word16) : Statement (.rxNew2 a c) := ⟨rfl, rfl, rfl⟩
theorem frameLength (f : Frame) : Statement (.frameLength f) := ⟨rfl, rfl, rfl⟩
theorem frameChecksum (f : Frame) : Statement (.frameChecksum f) := ⟨rfl, rfl, rfl⟩
theorem serializeTx (q : TxRequest) : Statement (.serializeTx q) := ⟨rfl, rfl, rfl⟩
theorem serializeRx (f : RxFrame) : Statement (.serializeRx f) := ⟨rfl, rfl, rfl⟩
theorem hexFrame (f : Frame) (m : HexMode) : Statement (.hexFrame f m) := ⟨rfl, rfl, rfl⟩
theorem decodeRx (t : Byte) (len : Word16) (body : Bytes) (sum : Byte) (ck : Byte) : Statement (.decodeRx t len body sum ck) := ⟨rfl, rfl, rfl⟩
theorem frameDelimiter : Statement .frameDelimiter := ⟨rfl, by decide⟩
theorem rxPacket : Statement .rxPacket := ⟨rfl, by decide⟩
theorem txRequest : Statement .txRequest := ⟨rfl, by decide⟩
theorem unrecognizedType (t : Byte) : Statement (.unrecognizedType t) := ⟨rfl, by simp [Instr.place]⟩

end Sys2Proof.Laws.OpcodeByte
end

