-- ==== Sys2Proof/Laws/Script.lean ====
section
/-! SUPPORT. What an RXS of body bytes does (R84, R155). -/

namespace Sys2Proof.Machine

open Sys2Proof

/-- The two length bytes make the big-endian value (R152, R153). -/
theorem length_of_bytes (hi lo : Byte) :
    (hi.setWidth 16 <<< 8 ||| lo.setWidth 16 : Word16) = BitVec.ofNat 16 (hi.toNat * 256 + lo.toNat) := by
  rw [← BitVec.add_eq_or_of_and_eq_zero]
  · have := hi.isLt
    have := lo.isLt
    apply BitVec.eq_of_toNat_eq
    simp [Nat.shiftLeft_eq]
  · ext i hi'
    simp only [BitVec.getElem_and, BitVec.getElem_shiftLeft, BitVec.getElem_setWidth, BitVec.getElem_zero]
    by_cases h : i < 8
    · simp [h]
    · simp [h, BitVec.getLsbD_of_ge lo i (by omega)]

/-- The four header bytes of a frame, received in the delimiter search (R151 to R154). -/
theorem rxs_header (hi lo t : Byte) {s : State} (h : s.rxState = .awaitDelim) :
    rxs [0x7E, hi, lo, t] s = .next (rxType t { s with
      ret := none, rxLen := BitVec.ofNat 16 (hi.toNat * 256 + lo.toNat), rxState := .type }) := by
  obtain ⟨p, r, len, ty, bd, cnt, sum, q, cur, log, line, ret, inp⟩ := s
  simp only at h
  subst h
  rw [← length_of_bytes]
  rfl

/-- Bytes received one after another are their first part and then the rest (R84). -/
theorem rxs_append (a b : Bytes) (s : State) :
    rxs (a ++ b) s = match rxs a s with
      | .next t => rxs b t
      | .fault f => .fault f
      | .refused r => .refused r := by
  rw [rxs, List.map_append, runOps_append]
  rfl

/-- Body bytes received one after another: all are counted and summed, those with room are stored, and the last one that
the length asks for moves to the checksum (R155). -/
theorem rxs_body (body : Bytes) {s : State} (hr : s.rxState = .body) (hret : s.ret = none)
    (hc : s.rxCount.toNat < s.rxLen.toNat - 1) (hl : s.rxCount.toNat + body.length ≤ s.rxLen.toNat - 1) :
    rxs body s = .next { s with
      rxBody := s.rxBody ++ body.take (s.params.rxBodyCap - s.rxCount.toNat)
      rxCount := s.rxCount + BitVec.ofNat 16 body.length
      rxSum := s.rxSum + byteSum body
      rxState := if s.rxCount.toNat + body.length = s.rxLen.toNat - 1 then .cksum else .body } := by
  induction body generalizing s with
  | nil =>
    obtain ⟨p, r, len, ty, bd, cnt, sum, q, cur, log, line, ret, inp⟩ := s
    simp only at hr hc
    subst hr
    simp [rxs, runOps, Nat.ne_of_lt hc]
  | cons b body ih =>
    obtain ⟨p, r, len, ty, bd, cnt, sum, q, cur, log, line, ret, inp⟩ := s
    simp only [List.length_cons] at hr hret hc hl ih ⊢
    subst hr hret
    have hlen := len.isLt
    have hcnt : (cnt + 1).toNat = cnt.toNat + 1 := by
      rw [BitVec.toNat_add]
      exact Nat.mod_eq_of_lt (by simp; omega)
    have hstore : memAppend bd p.rxBodyCap cnt.toNat b ++ body.take (p.rxBodyCap - (cnt.toNat + 1)) =
        bd ++ (b :: body).take (p.rxBodyCap - cnt.toNat) := by
      by_cases h : cnt.toNat < p.rxBodyCap
      · rw [memAppend_room b h, show p.rxBodyCap - cnt.toNat = p.rxBodyCap - (cnt.toNat + 1) + 1 by omega]
        simp
      · rw [memAppend_full b (Nat.le_of_not_lt h), show p.rxBodyCap - cnt.toNat = 0 by omega,
          show p.rxBodyCap - (cnt.toNat + 1) = 0 by omega]
        simp
    have hsum : sum + b + byteSum body = sum + byteSum (b :: body) := by rw [byteSum_cons, BitVec.add_assoc]
    have hcount : cnt + 1 + BitVec.ofNat 16 body.length = cnt + BitVec.ofNat 16 (body.length + 1) := by
      rw [Nat.add_comm, BitVec.ofNat_add, BitVec.add_assoc]
      rfl
    rw [rxs_cons]
    dsimp only [receive, rxBodyByte, State.take, State.goto]
    by_cases he : cnt.toNat + 1 = len.toNat - 1
    · have hb : body = [] := List.eq_nil_of_length_eq_zero (by omega)
      subst hb
      rw [if_pos he]
      simp only [List.take_nil, List.append_nil] at hstore
      simp [rxs, runOps, hstore, he, byteSum_cons]
    · rw [if_neg he]
      rw [ih rfl rfl (by simp only [hcnt]; omega) (by simp only [hcnt]; omega)]
      simp only [hcnt, hstore, hsum, hcount, Nat.add_assoc, Nat.add_comm 1]

end Sys2Proof.Machine
end

