-- ==== Sys2Proof/Laws/Run.lean ====
section
/-! SUPPORT. Runs of many steps: one step and the rest, and the induction over the steps of a run. -/

namespace Sys2Proof.Machine

open Sys2Proof

theorem core_run_zero (s : State) : Sys2Proof.core.run 0 s = .next s := rfl

/-- A run of any machine is one step and then the rest of the run. -/
theorem run_succ (M : Host.Core) (n : Nat) (s : M.State) :
    M.run (n + 1) s = match M.step s with
      | .next t => M.run n t
      | .fault f => .fault f
      | .refused r => .refused r := rfl

/-- A run of this machine is one step and then the rest of the run. -/
theorem core_run_succ (n : Nat) (s : State) :
    Sys2Proof.core.run (n + 1) s = match step s with
      | .next t => Sys2Proof.core.run n t
      | .fault f => .fault f
      | .refused r => .refused r := by
  have e : Sys2Proof.core.step s = step s := rfl
  rw [run_succ Sys2Proof.core n s, e]
  cases step s <;> rfl

/-- What every step keeps, every run keeps. -/
theorem core_run_keeps {P : State → Prop} (h : ∀ s t, P s → step s = .next t → P t) (n : Nat) {s t : State} (hs : P s)
    (hrun : Sys2Proof.core.run n s = .next t) : P t := by
  induction n generalizing s with
  | zero =>
    rw [core_run_zero] at hrun
    cases hrun
    exact hs
  | succ n ih =>
    rw [core_run_succ] at hrun
    cases hst : step s with
    | next u => exact ih (h s u hs hst) (by rw [hst] at hrun; exact hrun)
    | fault f => rw [hst] at hrun; cases hrun
    | refused r => rw [hst] at hrun; cases hrun

end Sys2Proof.Machine
end

