-- ==== Sys2Proof/Tests/Slice0.lean ====
section
/-! SUPPORT. Tests on fixed values, and for each statement with hypotheses a state and operands that meet them. Expected results are the
vectors of spec/95_test_vectors.md (C, F, R and T numbers) and the examples of the rules; words are written out from R81. -/

namespace Sys2Proof.Tests

open Sys2Proof Sys2Proof.Machine

/-! ### Small states and records -/

/-- `s_c` of spec/95_test_vectors.md: reset, then a successful CONNECT. -/
def conn : State := State.reset.clearParser

/-- A connected block at a place in a frame. -/
def at' (r : RxState) (len cnt : Word16) (t : Byte) (body : Bytes) (sum : Byte) : State :=
  { conn with rxState := r, rxLen := len, rxCount := cnt, rxType := t, rxBody := body, rxSum := sum }

/-- A connected block with a queue and work in flight. -/
def sending (q : List TxJob) (w : Option TxWork) : State := { conn with txQueue := q, txCur := w }

/-- The parameters with the checksum verified. -/
def verified (s : State) : State := { s with params := { s.params with verifyChecksum := true } }

/-- The parameters with the read timeout enabled. -/
def timed (s : State) : State := { s with params := { s.params with readTimeoutEn := true } }

/-- The parameters with a queue of depth 1. -/
def depth1 (s : State) : State := { s with params := { s.params with txqDepth := .atMost 1 } }

/-- `n` bytes of the value `b`. -/
def rep (n : Nat) (b : Byte) : Bytes := List.replicate n b

/-- The state an outcome gives, if it is a next state. -/
def nextOf (o : Result) : Option State :=
  match o with
  | .next t => some t
  | .fault _ => none
  | .refused _ => none

/-- The value a step returned. -/
def retOf (o : Result) : Option Value := (nextOf o).bind State.ret

/-- The refusal of an outcome. -/
def refusalOf (o : Result) : Option Refusal :=
  match o with
  | .next _ => none
  | .fault _ => none
  | .refused r => some r

def qHi : TxRequest := ⟨0, 0x0013A20012345678, 0xFFFE, 0, 0, [0x68, 0x69]⟩
def tHi : Bytes := [0x7E, 0x00, 0x10, 0x10, 0x00, 0x00, 0x13, 0xA2, 0x00, 0x12, 0x34, 0x56, 0x78, 0xFF, 0xFE, 0x00, 0x00,
  0x68, 0x69, 0x58]
def qZero : TxRequest := ⟨0, 0, 0, 0, 0, []⟩
def fAB : RxFrame := ⟨0, 0, 0, [0xAB]⟩
def rAB : RxRecord := ⟨0, 0, 0, [0xAB], 0x000D, 0xC4⟩
def badQ : TxRequest := { qZero with data := [0x61, 0x00] }
def longQ : TxRequest := { qZero with data := rep 257 0x55 }
def badF : RxFrame := { fAB with data := [0] }

/-! ### Well-formedness refuses an ill-formed term for each check -/

theorem test_wf_send_zero : (Instr.send badQ).wf Params.reference = false := by decide
theorem test_wf_send_long : (Instr.send longQ).wf Params.reference = false := by decide +kernel
theorem test_wf_dec16_short : (Instr.beDec16 [0]).wf Params.reference = false := by decide
theorem test_wf_dec64_long : (Instr.beDec64 (rep 9 0)).wf Params.reference = false := by decide
theorem test_wf_set_data : (Instr.txSetData badQ []).wf Params.reference = false := by decide
theorem test_wf_frame_length : (Instr.frameLength (.rx badF)).wf Params.reference = false := by decide
theorem test_wf_frame_checksum : (Instr.frameChecksum (.tx badQ)).wf Params.reference = false := by decide
theorem test_wf_serialize_tx : (Instr.serializeTx badQ).wf Params.reference = false := by decide
theorem test_wf_serialize_rx : (Instr.serializeRx badF).wf Params.reference = false := by decide
theorem test_wf_hex_frame : (Instr.hexFrame (.rx badF) .all).wf Params.reference = false := by decide
theorem test_wf_decode_zero : (Instr.decodeRx 0x90 0 [] 0x90 0x6F).wf Params.reference = false := by decide
theorem test_wf_type_rx : (Instr.unrecognizedType 0x90).wf Params.reference = false := by decide
theorem test_wf_type_tx : (Instr.unrecognizedType 0x10).wf Params.reference = false := by decide
theorem test_wf_accepts : (Instr.send qHi).wf Params.reference = true := by decide

/-! ### Every constructor's decoding, from a word written out by R81, R71 and R78 -/

theorem test_decode_connect : decodeCommand [0x01, 0x01] = .ok (.connect true) := by decide
theorem test_decode_stop : decodeCommand [0x02] = .ok .stop := by decide
theorem test_decode_send : decodeCommand [0x03, 0x00, 0x00, 0x13, 0xA2, 0x00, 0x12, 0x34, 0x56, 0x78, 0xFF, 0xFE, 0x00, 0x00,
    0x01, 0x68, 0x01, 0x69, 0x00] = .ok (.send qHi) := by decide
theorem test_decode_rx_byte : decodeCommand [0x04, 0x7E] = .ok (.rxByte 0x7E) := by decide
theorem test_decode_rx_error : decodeCommand [0x05] = .ok .rxError := by decide
theorem test_decode_rx_timeout : decodeCommand [0x06] = .ok .rxTimeout := by decide
theorem test_decode_tx_byte : decodeCommand [0x07] = .ok .txByte := by decide
theorem test_decode_tx_error : decodeCommand [0x08] = .ok .txError := by decide
theorem test_decode_enc8 : decodeCommand [0x10, 0x7E] = .ok (.beEnc8 0x7E) := by decide
theorem test_decode_enc16 : decodeCommand [0x11, 0xFF, 0xFE] = .ok (.beEnc16 0xFFFE) := by decide
theorem test_decode_enc64 : decodeCommand [0x12, 0x00, 0x13, 0xA2, 0x00, 0x12, 0x34, 0x56, 0x78] =
    .ok (.beEnc64 0x0013A20012345678) := by decide
theorem test_decode_dec16 : decodeCommand [0x13, 0x00, 0x0D] = .ok (.beDec16 [0x00, 0x0D]) := by decide
theorem test_decode_dec64 : decodeCommand [0x14, 0x00, 0x13, 0xA2, 0x00, 0x12, 0x34, 0x56, 0x78] =
    .ok (.beDec64 [0x00, 0x13, 0xA2, 0x00, 0x12, 0x34, 0x56, 0x78]) := by decide
theorem test_decode_byte_sum : decodeCommand [0x15, 0x01, 0xFF, 0x01, 0x01, 0x00] = .ok (.byteSum [0xFF, 0x01]) := by decide
theorem test_decode_checksum : decodeCommand [0x16, 0x01, 0x90, 0x01, 0xAB, 0x00] = .ok (.checksum [0x90, 0xAB]) := by decide
theorem test_decode_hex_text : decodeCommand [0x17, 0x01, 0x0A, 0x00, 0x01, 0x00] = .ok (.hexText [0x0A] true false) := by decide
theorem test_decode_tx_new0 : decodeCommand [0x18] = .ok .txNew0 := by decide
theorem test_decode_tx_new1 : decodeCommand [0x19, 0x00, 0x13, 0xA2, 0x00, 0x12, 0x34, 0x56, 0x78] =
    .ok (.txNew1 0x0013A20012345678) := by decide
theorem test_decode_tx_new2 : decodeCommand [0x1A, 0x00, 0x13, 0xA2, 0x00, 0x12, 0x34, 0x56, 0x78, 0xFF, 0xFE] =
    .ok (.txNew2 0x0013A20012345678 0xFFFE) := by decide
theorem test_decode_set_data : decodeCommand ([0x1B] ++ rep 13 0 ++ [0x00, 0x01, 0x61, 0x00]) =
    .ok (.txSetData qZero [0x61]) := by decide
theorem test_decode_rx_new0 : decodeCommand [0x1C] = .ok .rxNew0 := by decide
theorem test_decode_rx_new1 : decodeCommand [0x1D, 0, 0, 0, 0, 0, 0, 0, 0x01] = .ok (.rxNew1 1) := by decide
theorem test_decode_rx_new2 : decodeCommand [0x1E, 0, 0, 0, 0, 0, 0, 0, 0x01, 0x12, 0x34] = .ok (.rxNew2 1 0x1234) := by decide
theorem test_decode_frame_length : decodeCommand ([0x1F, 0x00] ++ rep 11 0 ++ [0x01, 0xAB, 0x00]) =
    .ok (.frameLength (.rx fAB)) := by decide
theorem test_decode_frame_checksum : decodeCommand ([0x20, 0x01] ++ rep 13 0 ++ [0x00]) = .ok (.frameChecksum (.tx qZero)) := by
  decide
theorem test_decode_serialize_tx : decodeCommand ([0x21] ++ rep 13 0 ++ [0x00]) = .ok (.serializeTx qZero) := by decide
theorem test_decode_serialize_rx : decodeCommand ([0x22] ++ rep 11 0 ++ [0x01, 0xAB, 0x00]) = .ok (.serializeRx fAB) := by decide
theorem test_decode_hex_frame : decodeCommand ([0x23, 0x00] ++ rep 11 0 ++ [0x01, 0xAB, 0x00, 0x02]) =
    .ok (.hexFrame (.rx fAB) .all) := by decide
theorem test_decode_decode_rx : decodeCommand [0x24, 0x90, 0x00, 0x0B, 0x01, 0x11, 0x00, 0xA1, 0x6F] =
    .ok (.decodeRx 0x90 0x000B [0x11] 0xA1 0x6F) := by decide
theorem test_decode_delimiter : decode .delimiter (.wire 0x7E) = .ok .frameDelimiter := by decide
theorem test_decode_rx_packet : decode .frameType (.wire 0x90) = .ok .rxPacket := by decide
theorem test_decode_tx_request : decode .frameType (.wire 0x10) = .ok .txRequest := by decide
theorem test_decode_unrecognized : decode .frameType (.wire 0xFF) = .ok (.unrecognizedType 0xFF) := by decide
theorem test_decode_data_7E : decode .elsewhere (.wire 0x7E) = .ok (.rxByte 0x7E) := by decide
theorem test_decode_unassigned : decodeCommand [0x25] = .error (.unassigned 0x25) := by decide
theorem test_decode_truncated : decodeCommand [0x11, 0xFF] = .error .malformed := by decide
theorem test_table_connect : decodeTableWord 8 0x01 = some (.connect false) := by decide
theorem test_table_delimiter : decodeTableWord 8 0x7E = some .frameDelimiter := by decide
theorem test_table_rx_packet : decodeTableWord 8 0x90 = some .rxPacket := by decide

/-! ### Codec (C vectors) -/

theorem test_C1_enc8 : retOf (exec (.beEnc8 0x7E) conn) = some (.bytes [0x7E]) := by decide
theorem test_C3_enc16 : retOf (exec (.beEnc16 0xFFFE) conn) = some (.bytes [0xFF, 0xFE]) := by decide
theorem test_C4_enc16_zero : retOf (exec (.beEnc16 0) conn) = some (.bytes [0, 0]) := by decide
theorem test_C6_enc64 : retOf (exec (.beEnc64 0x0013A20012345678) conn) =
    some (.bytes [0x00, 0x13, 0xA2, 0x00, 0x12, 0x34, 0x56, 0x78]) := by decide
theorem test_C7_enc64_leading_zeros : retOf (exec (.beEnc64 0x7E) conn) = some (.bytes [0, 0, 0, 0, 0, 0, 0, 0x7E]) := by decide
theorem test_C9_dec16 : retOf (exec (.beDec16 [0x00, 0x0D]) conn) = some (.u16 0x000D) := by decide
theorem test_C11_dec16_short : refusalOf (exec (.beDec16 [0x00]) conn) = some (.operandForm "BE_DEC16") := by decide
theorem test_C12_dec64 : retOf (exec (.beDec64 [0x00, 0x13, 0xA2, 0x00, 0x12, 0x34, 0x56, 0x78]) conn) =
    some (.u64 0x0013A20012345678) := by decide
theorem test_C15_byte_sum_wraps : retOf (exec (.byteSum [0xFF, 0x01]) conn) = some (.u8 0x00) := by decide
theorem test_C18_byte_sum_is_no_xor : retOf (exec (.byteSum [0x01, 0x01]) conn) = some (.u8 0x02) := by decide
theorem test_C20_checksum_empty : retOf (exec (.checksum []) conn) = some (.u8 0xFF) := by decide
theorem test_C24_checksum : retOf (exec (.checksum [0x90, 0xAB]) conn) = some (.u8 0xC4) := by decide
theorem test_C32_hex_one_byte : retOf (exec (.hexText [0x0A] true true) conn) = some (.text [0x30, 0x41, 0x20]) := by decide
theorem test_C35_hex_trail : retOf (exec (.hexText [0x68, 0x69] false true) conn) =
    some (.text [0x36, 0x38, 0x36, 0x39, 0x20]) := by decide

/-! ### Frames (F vectors) -/

theorem test_F3_tx_new1 : retOf (exec (.txNew1 0x0013A20012345678) conn) =
    some (.request ⟨0, 0x0013A20012345678, Config.txAddr16Default, 0, 0, []⟩) := rfl
theorem test_F4_tx_new2 : retOf (exec (.txNew2 0x0013A20012345678 0xFFFE) conn) =
    some (.request ⟨0, 0x0013A20012345678, 0xFFFE, 0, 0, []⟩) := by decide
theorem test_tx_new0 : retOf (exec .txNew0 conn) =
    some (.request ⟨0, Config.txAddr64Default, Config.txAddr16Default, 0, 0, []⟩) := rfl
theorem test_F5_set_data_zero : retOf (exec (.txSetData qZero [0x61, 0x00, 0x62]) conn) =
    some (.request { qZero with data := [0x61] }) := by decide
theorem test_F8_set_data_too_large : retOf (exec (.txSetData qZero (rep 257 0x55)) conn) = some (.err .payloadTooLarge) := by
  decide +kernel
theorem test_rx_new0 : retOf (exec .rxNew0 conn) =
    some (.packet ⟨Config.rxAddr64Default, Config.rxAddr16Default, 0, []⟩) := rfl
theorem test_rx_new1 : retOf (exec (.rxNew1 1) conn) = some (.packet ⟨1, Config.rxAddr16Default, 0, []⟩) := rfl
theorem test_rx_new2 : retOf (exec (.rxNew2 0x0013A20012345678 0x1234) conn) =
    some (.packet ⟨0x0013A20012345678, 0x1234, 0, []⟩) := by decide
theorem test_frame_length_tx : retOf (exec (.frameLength (.tx qHi)) conn) = some (.u16 0x0010) := by decide
theorem test_F18_frame_checksum_tx : retOf (exec (.frameChecksum (.tx qZero)) conn) = some (.u8 0xEF) := by decide
theorem test_frame_checksum_rx : retOf (exec (.frameChecksum (.rx fAB)) conn) = some (.u8 0xC4) := by decide
theorem test_F4_serialize_tx : retOf (exec (.serializeTx qHi) conn) = some (.bytes tHi) := by decide
theorem test_F10_no_escaping : retOf (exec (.serializeTx ⟨0x7E, 0x7E7E7E7E7E7E7E7E, 0x7E7E, 0x7E, 0x7E, [0x7E]⟩) conn) =
    some (.bytes ([0x7E, 0x00, 0x0F, 0x10] ++ rep 14 0x7E ++ [0x0B])) := by decide
theorem test_F12_serialize_rx : retOf (exec (.serializeRx fAB) conn) =
    some (.bytes ([0x7E, 0x00, 0x0D, 0x90] ++ rep 11 0 ++ [0xAB, 0xC4])) := by decide
theorem test_F14_hex_before_ck : retOf (exec (.hexFrame (.rx fAB) .beforeCk) conn) =
    some (.text (textBytes "7E000D900000000000000000000000AB C4".toList)) := by decide
theorem test_F14_hex_all : retOf (exec (.hexFrame (.rx fAB) .all) conn) =
    some (.text (textBytes "7E 00 0D 90 00 00 00 00 00 00 00 00 00 00 00 AB C4 ".toList)) := by decide

/-! ### Receive parser (R vectors and the rules' examples) -/

theorem test_idle_discards : nextOf (exec (.rxByte 0x7E) State.reset) = some State.reset := by decide
theorem test_R151_delimiter : (nextOf (exec (.rxByte 0x7E) conn)).map State.rxState = some .lenHi := by decide
theorem test_R152_length_high : (nextOf (exec (.rxByte 0x01) (at' .lenHi 0 0 0 [] 0))).map State.rxLen = some 0x0100 := by decide
theorem test_R153_length_low : (nextOf (exec (.rxByte 0x0D) (at' .lenLo 0 0 0 [] 0))).map State.rxLen = some 0x000D := by decide
theorem test_R4_zero_length : (nextOf (exec .rxPacket (at' .type 0 0 0 [] 0))).map State.log = some [.rxDrop .zeroLength] := by
  decide
theorem test_type_length_one : (nextOf (exec .rxPacket (at' .type 1 0 0 [] 0))).map State.rxState = some .cksum := by decide
theorem test_type_tx_request : (nextOf (exec .txRequest (at' .type 14 0 0 [] 0))).map State.rxSum = some 0x10 := by decide
theorem test_type_unrecognized : (nextOf (exec (.unrecognizedType 0xFF) (at' .type 12 0 0 [] 0))).map State.rxState =
    some .body := by decide
theorem test_delimiter_row : (nextOf (exec .frameDelimiter conn)).map State.rxState = some .lenHi := by decide
theorem test_R155_last_body_byte : (nextOf (exec (.rxByte 0xAB) (at' .body 0x000D 11 0x90 (rep 11 0) 0x90))).map
    (fun t => (t.rxState, t.rxSum, t.rxBody.length)) = some (.cksum, 0x3B, 12) := by decide
theorem test_R156_dispatch : (nextOf (exec (.rxByte 0xC4) (at' .cksum 0x000D 12 0x90 (rep 11 0 ++ [0xAB]) 0x3B))).map
    State.log = some [.rxFrame rAB] := by decide
theorem test_R9_verified_mismatch : (nextOf (exec (.rxByte 0x00)
    (verified (at' .cksum 0x000D 12 0x90 (rep 11 0 ++ [0xAB]) 0x3B)))).map State.log =
    some [.rxDrop .checksumMismatch] := by decide
theorem test_R20_read_error : (nextOf (exec .rxError (at' .body 0x000D 1 0x90 [0] 0x90))).map State.log =
    some [.error .transportRead] := by decide
theorem test_R21_read_error_idle : nextOf (exec .rxError State.reset) = some State.reset := by decide
theorem test_R23_timeout : (nextOf (exec .rxTimeout (timed (at' .lenLo 0 0 0 [] 0)))).map State.log =
    some [.error .readTimeout] := by decide
theorem test_R24_no_timeout : refusalOf (exec .rxTimeout (at' .lenLo 0 0 0 [] 0)) = some (.notEnabled "RX_TIMEOUT") := by decide
theorem test_R25_decode_unknown : retOf (exec (.decodeRx 0xFF 0x000C (rep 11 0) 0xFF 0x00) conn) =
    some (.err .unknownType) := by decide
theorem test_R26_decode_ok : retOf (exec (.decodeRx 0x90 0x000D (rep 11 0 ++ [0xAB]) 0x3B 0xC4) conn) =
    some (.decoded rAB) := by decide

/-! ### Lifecycle and transmit (T vectors) -/

theorem test_T1_connect : nextOf (exec (.connect true) State.reset) = some (conn.returns (.status .ok)) := by decide
theorem test_T3_connect_again : nextOf (exec (.connect true) conn) = some (conn.returns (.status .alreadyConnected)) := by decide
theorem test_T5_send : (nextOf (exec (.send qHi) conn)).map State.txQueue = some [⟨qHi, tHi⟩] := by decide
theorem test_T13_queue_full : retOf (exec (.send qZero) (depth1 (sending [⟨qHi, tHi⟩] none))) = some (.status .queueFull) := by
  decide
theorem test_T7_first_byte : (nextOf (exec .txByte (sending [⟨qHi, tHi⟩] none))).map (fun t => (t.line, t.txCur.map TxWork.idx)) =
    some ([0x7E], some 1) := by decide
theorem test_T6_last_byte : (nextOf (exec .txByte (sending [] (some ⟨qHi, tHi, 19⟩)))).map (fun t => (t.line, t.log, t.txCur)) =
    some ([0x58], [.txDone qHi .ok], none) := by decide
theorem test_T8_write_error : (nextOf (exec .txError (sending [⟨qHi, tHi⟩] none))).map (fun t => (t.log, t.txQueue)) =
    some ([.txDone qHi .transportWrite], []) := by decide
theorem test_T10_stop : (nextOf (exec .stop (sending [⟨qHi, tHi⟩] none))).map (fun t => (t.rxState, t.txQueue, t.log)) =
    some (.idle, [], []) := by decide
theorem test_T11_stop_idle : nextOf (exec .stop State.reset) = some (State.reset.returns (.status .ok)) := by decide
theorem test_step_takes_the_event : nextOf (step { State.reset with input := [.command [0x01, 0x01]] }) =
    some (conn.returns (.status .ok)) := by decide

/-! ### Scripts (R83, R84) -/

theorem test_script_rxs : readLine "RXS 7E 00 ; the header".toList = some (.rxs [0x7E, 0x00]) := by decide
theorem test_script_send2 : readLine "SEND2 0x0013A20012345678 0xFFFE \"hi\"".toList =
    some (.send2 0x0013A20012345678 0xFFFE [0x68, 0x69]) := by decide

/-- The text of the vector F5. -/
theorem test_script_zero_escape : readLine "SEND0 \"a\\0b\"".toList = some (.send0 [0x61, 0x00, 0x62]) := by decide

/-! ### The hypotheses of each statement are met -/

/-- Work in flight at its last byte, on a state of the invariant. -/
def busyState : State := sending [⟨qZero, serializeTx qZero⟩] (some ⟨qHi, serializeTx qHi, 19⟩)

/-- A state of the invariant whose frame has its checksum byte to come. -/
def ckState : State := at' .cksum 0x000D 12 0x90 (rep 11 0 ++ [0xAB]) 0x3B

theorem inv_reset : State.reset.Inv := ⟨by decide, by decide, by decide, by decide⟩
theorem inv_conn : conn.Inv := ⟨by decide, by decide, by decide, by decide⟩
theorem inv_busy : busyState.Inv := ⟨by decide, by decide, by decide, by decide⟩
theorem inv_ck : ckState.Inv := ⟨by decide, by decide, by decide, by decide⟩

theorem witness_StepRunsDecodedInstruction :
    ∃ (s : State) (ev : InEvent) (rest : List InEvent) (i : Instr),
      s.input = ev :: rest ∧ decode s.rxState.wirePlace ev = .ok i :=
  ⟨{ conn with input := [.wire 0x7E] }, _, _, _, rfl, rfl⟩
theorem witness_WireByteStepsAsRxByte : ∃ (s : State) (b : Byte) (rest : List InEvent), s.input = .wire b :: rest :=
  ⟨{ conn with input := [.wire 0x7E] }, _, _, rfl⟩
theorem witness_UnassignedCodesAreRefused :
    ({ conn with input := [.command [0x00]] } : State).input = [.command [0x00]] ∧ (0x00 : Byte).toNat = 0 ∧
    (0x09 ≤ (0x09 : Byte).toNat ∧ (0x0F : Byte).toNat ≤ 0x0F) ∧ 0x25 ≤ (0x25 : Byte).toNat := by decide
theorem witness_DecodeOfEncode : (Instr.send qHi).wf Params.reference = true ∧ (Instr.beDec16 [0, 1]).wf Params.reference = true := by
  decide
theorem witness_AcceptedWords : decodeCommand [0x01, 0x00] = .ok (.connect false) := by decide
theorem witness_ScriptsRunAsSteps : ((Instr.connect true).wf State.reset.params = true ∧ (Instr.connect true).place = .elsewhere) ∧
    State.reset.input = [] ∧ nextOf (runOps [.connect true] State.reset) = some (conn.returns (.status .ok)) := by decide
theorem witness_InvariantHoldsAtReset : Params.reference.legal = true ∧
    ({ Params.reference with txqDepth := .atMost 1 } : Params).legal = true := by decide
theorem witness_EveryStepKeepsTheInvariant :
    ∃ s t : State, s.Inv ∧ step s = .next t :=
  ⟨{ ckState with input := [.wire 0xC4] }, _, inv_ck, rfl⟩
theorem witness_InvariantStatesNeverFault : ({ busyState with input := [.command [0x07]] } : State).Inv := inv_busy
theorem witness_StopThenConnect : busyState.Inv ∧ State.reset.Inv := ⟨inv_busy, inv_reset⟩
theorem witness_BeDec : ([0x00] : Bytes).length ≠ 2 ∧ ([0x00, 0x0D] : Bytes).length = 2 ∧ (rep 7 0).length ≠ 8 ∧
    (rep 8 0).length = 8 := by decide
theorem witness_ByteSumPerm : ([0x01, 0xFF] : Bytes).Perm [0xFF, 0x01] := by decide
theorem witness_HexTextPosition : ([0x0A] : Bytes)[0]? = some 0x0A := by decide
theorem witness_FunctionsAreTotalAndPure : isFunction (.decodeRx 0x90 1 [] 0x90 0x6F) = true ∧
    (Instr.decodeRx 0x90 1 [] 0x90 0x6F).wf Params.reference = true ∧ conn.params = Params.reference := by decide
theorem witness_OperandsOutsideTheirForm : (Instr.send badQ).wf conn.params = false ∧ (Instr.send badQ).place = .elsewhere := by
  decide
theorem witness_TxSetData : txForm conn.params.cap qZero = true ∧ (∀ b ∈ ([0x61] : Bytes), b ≠ 0) ∧
    ([0x00, 0x62] : Bytes).head? = some 0 ∧ ([0x61] : Bytes).length ≤ conn.params.cap := by decide
theorem witness_TxSetDataAtCapacity : (∀ b ∈ rep 256 0x55, b ≠ 0) ∧ (rep 256 0x55).length ≤ conn.params.cap ∧
    (∀ b ∈ rep 257 0x55, b ≠ 0) ∧ conn.params.cap < (rep 257 0x55).length := by decide +kernel
theorem witness_Frames : rxForm conn.params.cap fAB = true ∧ txForm conn.params.cap qHi = true ∧
    frameForm conn.params.cap (.rx fAB) = true ∧ frameForm conn.params.cap (.tx qHi) = true := by decide
theorem witness_FramesAtCapacity : rxForm conn.params.cap { fAB with data := rep 256 0x55 } = true ∧
    frameForm (0 : Fin 65522).val (.tx qZero) = true := by decide +kernel
theorem witness_ReceivingAcceptsEveryByte : State.reset.rxState = .idle ∧ ckState.Inv ∧ ckState.rxState ≠ .idle :=
  ⟨rfl, inv_ck, by decide⟩
theorem witness_DelimiterSearch : conn.rxState = .awaitDelim ∧ (0x7E : Byte) = 0x7E ∧ (0x7F : Byte) ≠ 0x7E := by decide
theorem witness_LengthStates : (at' .lenHi 0 0 0 [] 0).rxState = .lenHi ∧ (at' .lenLo 0x0100 0 0 [] 0).rxState = .lenLo := by decide
theorem witness_TypeByte : (at' .type 0 0 0 [] 0).rxState = .type ∧ (at' .type 0 0 0 [] 0).rxLen.toNat = 0 ∧
    (at' .type 1 0 0 [] 0).rxLen.toNat = 1 ∧ 2 ≤ (at' .type 2 0 0 [] 0).rxLen.toNat := by decide
theorem witness_BodyByte : (at' .body 2 0 0 [] 0).rxState = .body ∧
    (at' .body 2 0 0 [] 0).rxCount.toNat < (at' .body 2 0 0 [] 0).rxLen.toNat - 1 ∧
    (at' .body 2 0 0 [] 0).rxCount.toNat + 1 = (at' .body 2 0 0 [] 0).rxLen.toNat - 1 ∧
    (at' .body 3 0 0 [] 0).rxCount.toNat + 1 ≠ (at' .body 3 0 0 [] 0).rxLen.toNat - 1 ∧
    (at' .body 0x0200 266 0 [] 0).rxCount.toNat < 11 + conn.params.cap ∧
    11 + conn.params.cap ≤ (at' .body 0x0200 267 0 [] 0).rxCount.toNat := by decide
theorem witness_ChecksumByte : ckState.Inv ∧ ckState.rxState = .cksum := ⟨inv_ck, rfl⟩
theorem witness_DecodeRxTests : 1 ≤ (0x0001 : Word16).toNat ∧
    ((verified conn).params.verifyChecksum = true ∧ ((0x3B : Byte).toNat + (0x00 : Byte).toNat) % 256 ≠ 0xFF) ∧
    ¬ (conn.params.verifyChecksum = true ∧ ((0x3B : Byte).toNat + (0x00 : Byte).toNat) % 256 ≠ 0xFF) ∧
    (0x91 : Byte) ≠ 0x90 ∧ (0x000B : Word16).toNat - 1 < 11 ∧ 11 + conn.params.cap < (0x010D : Word16).toNat - 1 := by decide
theorem witness_DecodeRxReads : rep 11 0 ++ [0xAB] = enc64 0 ++ enc16 0 ++ [0] ++ [0xAB] ++ [] ∧
    11 ≤ (0x000C : Word16).toNat - 1 ∧ (0x010C : Word16).toNat - 1 ≤ 11 + conn.params.cap ∧
    (∀ b ∈ ([0xAB] : Bytes), b ≠ 0) ∧ ([0xAB] : Bytes).length ≤ conn.params.cap := by decide
theorem witness_DecodeRxRuns :
    ¬ (conn.params.verifyChecksum = true ∧ ((0x90 : Byte).toNat + (0x6F : Byte).toNat) % 256 ≠ 0xFF) ∧
    ¬ ((verified conn).params.verifyChecksum = true ∧ ((0x90 : Byte).toNat + (0x6F : Byte).toNat) % 256 ≠ 0xFF) ∧
    12 ≤ (12 : Word16).toNat ∧ (268 : Word16).toNat ≤ 12 + conn.params.cap ∧ 8 ≤ (rep 8 0).length ∧ 10 ≤ (rep 10 0).length ∧
    (rep 11 0)[10]? = some 0 ∧ (takeZ ((rep 267 0x55).drop 11)).length ≤ conn.params.cap := by decide +kernel
theorem witness_ReadError : State.reset.rxState = .idle ∧ conn.rxState ≠ .idle := by decide
theorem witness_ReadTimeout : (timed (at' .lenHi 0 0 0 [] 0)).params.readTimeoutEn = true ∧
    (timed (at' .lenHi 0 0 0 [] 0)).rxState = .lenHi ∧ (timed ckState).rxState = .cksum ∧ conn.params.readTimeoutEn = false ∧
    (timed State.reset).rxState = .idle ∧ (timed conn).rxState = .awaitDelim := by decide
theorem witness_EventsNotEnabled : conn.params.readTimeoutEn = false ∧ (timed State.reset).rxState = .idle ∧
    (timed conn).rxState = .awaitDelim ∧ conn.txCur = none ∧ conn.txQueue = [] := by decide
theorem witness_WireRows : conn.rxState = .awaitDelim ∧ (at' .type 2 0 0 [] 0).rxState = .type ∧
    2 ≤ (at' .type 2 0 0 [] 0).rxLen.toNat ∧ (0x00 : Byte) ≠ 0x90 ∧ (0x00 : Byte) ≠ 0x10 := by decide
theorem witness_FrameConsumesItsLength : conn.rxState = .awaitDelim ∧ 1 ≤ (0x00 : Byte).toNat * 256 + (0x01 : Byte).toNat ∧
    ([] : Bytes).length = (0x00 : Byte).toNat * 256 + (0x01 : Byte).toNat - 1 ∧
    ([0x7E, 0x00, 0x01, 0x90, 0x6F] : Bytes) = [0x7E, 0x00, 0x01, 0x90] ++ [] ++ [0x6F] ∧
    1 ≤ 4 ∧ 4 < ([0x7E, 0x00, 0x01, 0x90, 0x6F] : Bytes).length := by decide
theorem witness_RoundTrip : conn.rxState = .awaitDelim ∧ rxForm conn.params.cap fAB = true ∧ txForm conn.params.cap qHi = true := by
  decide
theorem witness_AfterAReadError : (at' .lenLo 0x0100 0 0 [] 0).rxState ≠ .idle ∧
    rxForm (at' .lenLo 0x0100 0 0 [] 0).params.cap fAB = true := by decide
theorem witness_LineCarries : conn.Inv ∧ conn.txCur = none ∧ conn.txQueue = [] ∧
    (nextOf (Sys2Proof.core.run 2 { conn with input := [encode (.send qHi), .command [0x07]] })).map State.line = some [0x7E] :=
  ⟨inv_conn, rfl, rfl, by decide⟩
theorem witness_Connect : conn.rxState ≠ .idle ∧ State.reset.rxState = .idle := by decide
theorem witness_Send : txForm conn.params.cap qHi = true ∧ State.reset.rxState = .idle ∧ conn.rxState ≠ .idle ∧
    (depth1 (sending [⟨qHi, tHi⟩] none)).params.txqDepth = .atMost (depth1 (sending [⟨qHi, tHi⟩] none)).txQueue.length ∧
    conn.params.txqDepth ≠ .atMost conn.txQueue.length := by decide
theorem witness_TxByteInFlight : busyState.txCur = some ⟨qHi, serializeTx qHi, 19⟩ ∧ (serializeTx qHi)[19]? = some 0x58 ∧
    19 + 1 = (serializeTx qHi).length ∧ (serializeTx qHi)[0]? = some 0x7E ∧ 0 + 1 ≠ (serializeTx qHi).length := by decide
theorem witness_TxByteStarts : (sending [⟨qHi, tHi⟩] none).txCur = none ∧ (sending [⟨qHi, tHi⟩] none).txQueue = [⟨qHi, tHi⟩] ∧
    tHi[0]? = some 0x7E ∧ tHi.length ≠ 1 ∧ ([0x7E] : Bytes)[0]? = some 0x7E ∧ ([0x7E] : Bytes).length = 1 ∧
    conn.txCur = none ∧ conn.txQueue = [] := by decide
theorem witness_Drain : busyState.Inv ∧ busyState.busy = true := ⟨inv_busy, by decide⟩
theorem witness_SendHi : conn.rxState ≠ .idle ∧ conn.txCur = none ∧ conn.txQueue = [] ∧ 2 ≤ conn.params.cap ∧
    conn.params.legal = true := by decide
theorem witness_SendPseudoShort : (∀ b ∈ ([0x68, 0x69] : Bytes), b ≠ 0) ∧ ([0x68, 0x69] : Bytes).length ≤ conn.params.cap := by
  decide
theorem witness_EachStep : ∃ s t : State, step s = .next t := ⟨{ conn with input := [.wire 0x7E] }, _, rfl⟩
theorem witness_Sides : (∃ t, exec (.send qHi) conn = .next t) ∧ (∃ t, exec .rxError conn = .next t) ∧
    (∃ t, exec .txError busyState = .next t) := ⟨⟨_, rfl⟩, ⟨_, rfl⟩, ⟨_, rfl⟩⟩
theorem witness_Commute : (∃ t, exec (.rxByte 0x7E) busyState = .next t) ∧ ∃ u, exec .txByte busyState = .next u :=
  ⟨⟨_, rfl⟩, ⟨_, rfl⟩⟩
theorem witness_NothingHappens : State.reset.Inv ∧ State.reset.rxState = .idle ∧
    (∀ ev ∈ [InEvent.wire 0x7E], ev ≠ encode (.connect true)) ∧
    nextOf (Sys2Proof.core.run 1 { State.reset with input := [.wire 0x7E] }) = some State.reset :=
  ⟨inv_reset, by decide, by decide, by decide⟩
theorem witness_OnlyConnectAndStop : ∃ t, exec (.connect false) State.reset = .next t := ⟨_, rfl⟩

end Sys2Proof.Tests
end

/-! Proofs of the codec statements (spec/40_codec.md R101 to R109): what each codec instruction does to the state, the
bytes of an integer as digits to base 256, `dec_16` and `dec_64` as the inverses of `enc_16` and `enc_64`, the byte sum
and its complement, and where the digits of a byte stand in a hex text. -/

namespace Sys2Proof.Machine

/-! ### The codec instructions as state updates -/

theorem exec_beEnc8 (v : Byte) (s : State) : exec (.beEnc8 v) s = .next (s.returns (.bytes (enc8 v))) :=
  rfl

theorem exec_beEnc16 (v : Word16) (s : State) : exec (.beEnc16 v) s = .next (s.returns (.bytes (enc16 v))) :=
  rfl

theorem exec_beEnc64 (v : Word64) (s : State) : exec (.beEnc64 v) s = .next (s.returns (.bytes (enc64 v))) :=
  rfl

theorem exec_byteSum (bs : Bytes) (s : State) : exec (.byteSum bs) s = .next (s.returns (.u8 (byteSum bs))) :=
  rfl

theorem exec_checksum (bs : Bytes) (s : State) : exec (.checksum bs) s = .next (s.returns (.u8 (checksum bs))) :=
  rfl

theorem exec_hexText (bs : Bytes) (sep trail : Bool) (s : State) :
    exec (.hexText bs sep trail) s = .next (s.returns (.text (toHexText bs sep trail))) :=
  rfl

theorem exec_beDec16_of_some {bs : Bytes} {v : Word16} (h : dec16 bs = some v) (s : State) :
    exec (.beDec16 bs) s = .next (s.returns (.u16 v)) := by
  simp [exec, execBeDec16, h]

theorem exec_beDec16_of_length_ne {bs : Bytes} (h : bs.length ≠ 2) (s : State) :
    exec (.beDec16 bs) s = .refused (.operandForm "BE_DEC16") := by
  have hnone : dec16 bs = none := by simpa using mt (dec16_isSome_iff bs).mp h
  simp [exec, execBeDec16, hnone]

theorem exec_beDec64_of_some {bs : Bytes} {v : Word64} (h : dec64 bs = some v) (s : State) :
    exec (.beDec64 bs) s = .next (s.returns (.u64 v)) := by
  simp [exec, execBeDec64, h]

theorem exec_beDec64_of_length_ne {bs : Bytes} (h : bs.length ≠ 8) (s : State) :
    exec (.beDec64 bs) s = .refused (.operandForm "BE_DEC64") := by
  have hnone : dec64 bs = none := by simpa using mt (dec64_isSome_iff bs).mp h
  simp [exec, execBeDec64, hnone]

/-! ### The bytes of an integer, most significant first -/

/-- Bits `k + 7` to `k` of a word are its digit to base 256 at weight `2 ^ k`. -/
theorem extractLsb'_eq_ofNat_div {n : Nat} (v : BitVec n) (k : Nat) :
    v.extractLsb' k 8 = BitVec.ofNat 8 (v.toNat / 2 ^ k) := by
  rw [BitVec.extractLsb', Nat.shiftRight_eq_div_pow]

theorem extractLsb'_toNat_eq_div {n : Nat} (v : BitVec n) (k : Nat) :
    (v.extractLsb' k 8).toNat = v.toNat / 2 ^ k % 256 := by
  rw [extractLsb'_eq_ofNat_div, BitVec.toNat_ofNat]

/-- Appending a byte multiplies by 256 and adds it (the shift and the or of R104). -/
theorem append_byte_toNat {n : Nat} (v : BitVec n) (b : Byte) : (v ++ b).toNat = v.toNat * 256 + b.toNat := by
  rw [BitVec.toNat_append, ← Nat.shiftLeft_add_eq_or_of_lt b.isLt, Nat.shiftLeft_eq]

/-- Byte `i` of `enc_64` is the one of bits `8 * (7 - i) + 7` to `8 * (7 - i)` (R103). -/
theorem enc64_getElem? (v : Word64) {i : Nat} (hi : i < 8) :
    (enc64 v)[i]? = some (v.extractLsb' (8 * (7 - i)) 8) := by
  interval_cases i <;> rfl

/-- A u64 is the sum of its bytes, each at its weight (R105). -/
theorem enc64_weighted_sum (v : Word64) :
    ((List.range 8).map fun i => ((enc64 v).getD i 0).toNat * 2 ^ (8 * (7 - i))).sum = v.toNat := by
  have hbyte : ∀ i ∈ List.range 8, ((enc64 v).getD i 0).toNat * 2 ^ (8 * (7 - i)) =
      v.toNat / 2 ^ (8 * (7 - i)) % 256 * 2 ^ (8 * (7 - i)) := by
    intro i hi
    rw [List.getD_eq_getElem?_getD, enc64_getElem? v (List.mem_range.mp hi), Option.getD_some,
      extractLsb'_toNat_eq_div]
  rw [List.map_congr_left hbyte]
  have hlt := v.isLt
  simp only [List.range_succ, List.range_zero, List.map_append, List.map_cons, List.map_nil, List.sum_append,
    List.sum_cons, List.sum_nil]
  omega

/-! ### Decoding inverts encoding -/

theorem enc16_append (a b : Byte) : enc16 (a ++ b) = [a, b] := by
  unfold enc16
  rw [BitVec.extractLsb'_append_eq_left, BitVec.extractLsb'_append_eq_right]

/-- `dec_16` answers `v` on the encoding of `v` and nowhere else: both laws of R104. -/
theorem dec16_eq_some_iff {bs : Bytes} {v : Word16} : dec16 bs = some v ↔ bs = enc16 v := by
  constructor
  · intro h
    unfold dec16 at h
    split at h
    · rw [← Option.some.inj h, enc16_append]
    · cases h
  · rintro rfl
    exact congrArg some (halves_append v)

/-- The byte of bits 63 to 56 of eight appended bytes is the first of them, and so on. -/
theorem enc64_append (a b c d e f g h : Byte) :
    enc64 (a ++ b ++ c ++ d ++ e ++ f ++ g ++ h) = [a, b, c, d, e, f, g, h] := by
  change ([56, 48, 40, 32, 24, 16, 8, 0].map fun k => (a ++ b ++ c ++ d ++ e ++ f ++ g ++ h).extractLsb' k 8) = _
  simp only [List.map_cons, List.map_nil, BitVec.extractLsb'_append_eq_of_le, BitVec.extractLsb'_append_eq_right,
    BitVec.extractLsb'_eq_self, Nat.reduceLeDiff, Nat.reduceSub]

/-- `dec_64` answers `v` on the encoding of `v` and nowhere else: both laws of R105. -/
theorem dec64_eq_some_iff {bs : Bytes} {v : Word64} : dec64 bs = some v ↔ bs = enc64 v := by
  constructor
  · intro h
    unfold dec64 at h
    split at h
    · rw [← Option.some.inj h, enc64_append]
    · cases h
  · rintro rfl
    exact congrArg some (octets_append v)

/-- A sequence of eight bytes is the encoding of one u64. -/
theorem exists_enc64_of_length {bs : Bytes} (h : bs.length = 8) : ∃ v, bs = enc64 v := by
  obtain ⟨v, hv⟩ := Option.isSome_iff_exists.mp ((dec64_isSome_iff bs).mpr h)
  exact ⟨v, dec64_eq_some_iff.mp hv⟩

/-- A sequence of two bytes is the encoding of one u16. -/
theorem exists_enc16_of_length {bs : Bytes} (h : bs.length = 2) : ∃ v, bs = enc16 v := by
  obtain ⟨v, hv⟩ := Option.isSome_iff_exists.mp ((dec16_isSome_iff bs).mpr h)
  exact ⟨v, dec16_eq_some_iff.mp hv⟩

theorem exec_beDec16_enc16 (v : Word16) (s : State) : exec (.beDec16 (enc16 v)) s = .next (s.returns (.u16 v)) :=
  exec_beDec16_of_some (dec16_eq_some_iff.mpr rfl) s

theorem exec_beDec64_enc64 (v : Word64) (s : State) : exec (.beDec64 (enc64 v)) s = .next (s.returns (.u64 v)) :=
  exec_beDec64_of_some (dec64_eq_some_iff.mpr rfl) s

/-! ### The byte sum and its complement -/

theorem byteSum_perm {a b : Bytes} (h : a.Perm b) : byteSum a = byteSum b := by
  rw [byteSum, byteSum, (h.map BitVec.toNat).sum_nat]

theorem checksum_eq_not (s : Bytes) : checksum s = ~~~byteSum s := by
  rw [← BitVec.allOnes_sub_eq_not]
  rfl

theorem checksum_toNat (s : Bytes) : (checksum s).toNat = 0xFF - (byteSum s).toNat := by
  rw [checksum_eq_not, BitVec.toNat_not]

theorem checksum_eq_xor (s : Bytes) : checksum s = byteSum s ^^^ 0xFF := by
  rw [checksum_eq_not, ← BitVec.xor_allOnes]
  rfl

/-! ### Hexadecimal text -/

theorem hexdig_toNat (d : BitVec 4) :
    (hexdig d).toNat = if d.toNat ≤ 9 then 0x30 + d.toNat else 0x41 + (d.toNat - 10) := by
  unfold hexdig
  split
  · bv_omega
  · bv_omega

/-- Distinct values have distinct digits: the ranges `0` to `9` and `A` to `F` do not meet (R108). -/
theorem hexdig_injective : Function.Injective hexdig := by
  intro c d h
  have hnat := congrArg BitVec.toNat h
  rw [hexdig_toNat, hexdig_toNat] at hnat
  apply BitVec.eq_of_toNat_eq
  split_ifs at hnat <;> omega

@[simp] theorem hex2_length (b : Byte) : (hex2 b).length = 2 := rfl

/-- The separator stands between two octets and nowhere else (R109). -/
theorem hexOctets_eq_intersperse (sep : Bool) (s : Bytes) :
    hexOctets sep s = ((s.map hex2).intersperse (if sep then [space] else [])).flatten := by
  induction s using hexOctets.induct with
  | case1 => rfl
  | case2 b => simp [hexOctets]
  | case3 b c r ih => simp [hexOctets, ih]

theorem hexOctets_length (sep : Bool) (s : Bytes) :
    (hexOctets sep s).length = 2 * s.length + (if sep then s.length - 1 else 0) := by
  induction s using hexOctets.induct with
  | case1 => simp [hexOctets]
  | case2 b => simp [hexOctets]
  | case3 b c r ih =>
    cases sep <;> simp +arith [hexOctets, ih]

/-- The two digits of byte `i` stand after three characters for each byte before it with separators, and after two
without (R109). -/
theorem hexOctets_split (sep : Bool) {s : Bytes} {i : Nat} {b : Byte} (h : s[i]? = some b) :
    ∃ pre post, hexOctets sep s = pre ++ hex2 b ++ post ∧ pre.length = (if sep then 3 else 2) * i := by
  induction s generalizing i with
  | nil => simp at h
  | cons c s ih =>
    cases i with
    | zero =>
      obtain rfl : c = b := by simpa using h
      cases s with
      | nil => exact ⟨[], [], by simp [hexOctets], rfl⟩
      | cons d r => exact ⟨[], _, List.append_assoc .., rfl⟩
    | succ i =>
      obtain ⟨pre, post, heq, hlen⟩ := ih (by simpa using h)
      have hne : s ≠ [] := by
        rintro rfl
        simp at h
      refine ⟨hex2 c ++ (if sep then [space] else []) ++ pre, post, ?_, ?_⟩
      · rw [hexOctets_cons sep c s hne, heq]
        simp only [List.append_assoc]
      · rw [List.length_append, hlen]
        cases sep <;> simp +arith [Nat.mul_add]

/-- The digits of byte `i` in the text, read at their positions (R109). -/
theorem toHexText_getElem? (sep trail : Bool) {s : Bytes} {i : Nat} {b : Byte} (h : s[i]? = some b) :
    (toHexText s sep trail)[(if sep then 3 else 2) * i]? = some (hexdig (b.extractLsb' 4 4)) ∧
    (toHexText s sep trail)[(if sep then 3 else 2) * i + 1]? = some (hexdig (b.extractLsb' 0 4)) := by
  obtain ⟨pre, post, heq, hlen⟩ := hexOctets_split sep h
  rw [toHexText, heq, ← hlen]
  constructor <;> simp [hex2]

/-! ### The statements -/

/-- Settles O15: byte `i` is the digit to base 256 at weight `2 ^ (8 * (7 - i))`. -/
theorem beEnc64GivesEightBytes : Obligations.BeEnc64GivesEightBytes := by
  intro v s
  refine ⟨enc64 v, exec_beEnc64 v s, enc64_length v, fun i hi => ?_⟩
  rw [enc64_getElem? v hi, extractLsb'_eq_ofNat_div]

/-- Settles O16, by `dec16_eq_some_iff`: two bytes are the encoding of exactly one value. -/
theorem beDec16ReadsBigEndian : Obligations.BeDec16ReadsBigEndian := by
  refine ⟨fun a b s => ?_, fun bs s h => exec_beDec16_of_length_ne h s, exec_beDec16_enc16, fun bs s h => ?_⟩
  · rw [← append_byte_toNat a b, BitVec.ofNat_toNat, BitVec.setWidth_eq]
    exact exec_beDec16_of_some (dec16_pair a b) s
  · obtain ⟨v, rfl⟩ := exists_enc16_of_length h
    exact ⟨v, exec_beDec16_enc16 v s, rfl⟩

/-- Settles O17, by `dec64_eq_some_iff`: eight bytes are the encoding of exactly one value, and a value is the weighted
sum of its bytes. -/
theorem beDec64ReadsBigEndian : Obligations.BeDec64ReadsBigEndian := by
  refine ⟨fun bs s h => ?_, fun bs s h => exec_beDec64_of_length_ne h s, exec_beDec64_enc64, fun bs s h => ?_⟩
  · obtain ⟨v, rfl⟩ := exists_enc64_of_length h
    rw [enc64_weighted_sum, BitVec.ofNat_toNat, BitVec.setWidth_eq]
    exact exec_beDec64_enc64 v s
  · obtain ⟨v, rfl⟩ := exists_enc64_of_length h
    exact ⟨v, exec_beDec64_enc64 v s, rfl⟩

/-- Settles O18. -/
theorem byteSumAddsModulo256 : Obligations.ByteSumAddsModulo256 := by
  intro bs s
  refine ⟨byteSum bs, exec_byteSum bs s, byteSum_toNat bs, fun bs' h => ?_⟩
  rw [← byteSum_perm h]
  exact exec_byteSum bs' s

/-- Settles O20. -/
theorem hexTextSpellsEveryByte : Obligations.HexTextSpellsEveryByte := by
  refine ⟨hexdig_toNat, hexdig_injective, fun bs sep trail s => ⟨toHexText bs sep trail, exec_hexText bs sep trail s,
    ?_, ?_, fun i b h => toHexText_getElem? sep trail h⟩⟩
  · rw [toHexText, hexOctets_eq_intersperse]
    rfl
  · rw [toHexText, List.length_append, hexOctets_length]
    cases trail <;> rfl

/-- Settles O13. -/
theorem beEnc8GivesItsByte : Obligations.BeEnc8GivesItsByte := exec_beEnc8

/-- Settles O14. -/
theorem beEnc16GivesHighByteFirst : Obligations.BeEnc16GivesHighByteFirst := by
  intro v s
  have hlt := v.isLt
  refine ⟨v.extractLsb' 8 8, v.extractLsb' 0 8, exec_beEnc16 v s, ?_, ?_⟩
  · rw [extractLsb'_toNat_eq_div]
    omega
  · rw [extractLsb'_toNat_eq_div]
    omega

/-- Settles O19. -/
theorem checksumComplementsTheByteSum : Obligations.ChecksumComplementsTheByteSum := by
  intro bs s
  refine ⟨byteSum bs, checksum bs, exec_byteSum bs s, exec_checksum bs s, checksum_toNat bs, checksum_eq_not bs,
    checksum_eq_xor bs, ?_⟩
  rw [← BitVec.toNat_add, byteSum_add_checksum]
  rfl

end Sys2Proof.Machine

/-! Proofs of the frame statements (spec/41_frames.md R120 to R135): what each frame instruction does to the state, the
parts of a serialized frame, its hex texts, and a serialized frame received byte by byte. -/

namespace Sys2Proof.Machine

/-! ### The frame instructions as state updates -/

theorem exec_txSetData {q : TxRequest} {s : State} (h : txForm s.params.cap q = true) (bs : Bytes) :
    exec (.txSetData q bs) s = .next (s.returns
      (if s.params.cap < (takeZ bs).length then .err .payloadTooLarge
       else .request { q with data := takeZ bs })) := by
  change execTxSetData q bs s = _
  rw [execTxSetData, if_pos h, txSetData]
  split_ifs <;> rfl

theorem exec_frameLength {f : Frame} {s : State} (h : frameForm s.params.cap f = true) :
    exec (.frameLength f) s = .next (s.returns (.u16 (frameLength f))) :=
  if_pos h

theorem exec_frameChecksum {f : Frame} {s : State} (h : frameForm s.params.cap f = true) :
    exec (.frameChecksum f) s = .next (s.returns (.u8 (frameChecksum f))) :=
  if_pos h

theorem exec_serializeTx {q : TxRequest} {s : State} (h : txForm s.params.cap q = true) :
    exec (.serializeTx q) s = .next (s.returns (.bytes (serializeTx q))) :=
  if_pos h

theorem exec_serializeRx {f : RxFrame} {s : State} (h : rxForm s.params.cap f = true) :
    exec (.serializeRx f) s = .next (s.returns (.bytes (serializeRx f))) :=
  if_pos h

theorem exec_hexFrame {f : Frame} {s : State} (h : frameForm s.params.cap f = true) (mode : HexMode) :
    exec (.hexFrame f mode) s = .next (s.returns (.text (hexFrame f mode))) :=
  if_pos h

/-! ### Derived length and checksum -/

theorem frameLength_rx_toNat {f : RxFrame} {cap : Fin 65522} (h : rxForm cap.val f = true) :
    (frameLength (.rx f)).toNat = 12 + f.data.length :=
  (frameLength_toNat (f := .rx f) h).trans (rxBody_length f)

theorem frameLength_tx_toNat {q : TxRequest} {cap : Fin 65522} (h : txForm cap.val q = true) :
    (frameLength (.tx q)).toNat = 14 + q.data.length :=
  (frameLength_toNat (f := .tx q) h).trans (txBody_length q)

/-- The two bytes of a u16 are its digits to base 256, high digit first (R102). -/
theorem enc16_digits (v : Word16) :
    (v.extractLsb' 8 8).toNat * 256 + (v.extractLsb' 0 8).toNat = v.toNat := by
  have hlt := v.isLt
  rw [extractLsb'_toNat_eq_div, extractLsb'_toNat_eq_div]
  omega

/-- The bytes under a ReceivePacket's checksum, summed field by field (R130, R73). -/
theorem rxBody_sum (f : RxFrame) :
    ((rxBody f).map BitVec.toNat).sum =
      0x90 + ((enc64 f.src64).map BitVec.toNat).sum + ((enc16 f.src16).map BitVec.toNat).sum +
        f.options.toNat + (f.data.map BitVec.toNat).sum := by
  simp [rxBody, Nat.add_assoc]

/-- The bytes under a TransmitRequest's checksum, summed field by field (R130, R74). -/
theorem txBody_sum (q : TxRequest) :
    ((txBody q).map BitVec.toNat).sum =
      0x10 + q.frameId.toNat + ((enc64 q.dst64).map BitVec.toNat).sum +
        ((enc16 q.dst16).map BitVec.toNat).sum + q.radius.toNat + q.options.toNat +
        (q.data.map BitVec.toNat).sum := by
  simp [txBody, Nat.add_assoc]

/-! ### The parts of a serialized frame -/

/-- A serialized frame without its checksum byte (R70). -/
def beforeChecksum (f : Frame) : Bytes := [Config.delim] ++ enc16 (frameLength f) ++ frameBody f

theorem serialize_eq_append_checksum (f : Frame) : serialize f = beforeChecksum f ++ [frameChecksum f] :=
  rfl

theorem serialize_eq_header_append (f : Frame) :
    serialize f = [0x7E] ++ enc16 (frameLength f) ++ (frameBody f ++ [frameChecksum f]) := by
  rw [← List.append_assoc]
  rfl

theorem serialize_length_eq_succ (f : Frame) : (serialize f).length = (beforeChecksum f).length + 1 :=
  List.length_append

theorem memRead_serialize_length_field (f : Frame) : memRead (serialize f) 1 2 = enc16 (frameLength f) :=
  rfl

theorem serialize_drop_header (f : Frame) : (serialize f).drop 3 = frameBody f ++ [frameChecksum f] := by
  rw [serialize_eq_header_append]
  exact List.drop_left' rfl

theorem memRead_serialize_body (f : Frame) :
    memRead (serialize f) 3 ((serialize f).length - 4) = frameBody f := by
  rw [memRead, serialize_drop_header, serialize_length, Nat.add_sub_cancel, List.take_left']
  rfl

/-- The bytes after the length field sum to 0xFF with their checksum (R134). -/
theorem byteSum_serialize_drop_header (f : Frame) : byteSum ((serialize f).drop 3) = 0xFF := by
  rw [serialize_drop_header, byteSum_append, byteSum_cons, byteSum_nil, add_zero]
  exact byteSum_add_checksum (frameBody f)

/-! ### Hex texts without and with spaces -/

theorem hexOctets_false (s : Bytes) : hexOctets false s = s.flatMap hex2 := by
  induction s using hexOctets.induct with
  | case1 => rfl
  | case2 b => simp [hexOctets]
  | case3 b c r ih => simp [hexOctets, ih]

/-- With separators and a trailing space every octet is followed by one (R109). -/
theorem toHexText_spaced {s : Bytes} (h : s ≠ []) :
    toHexText s true true = s.flatMap fun b => hex2 b ++ [space] := by
  induction s using hexOctets.induct with
  | case1 => exact absurd rfl h
  | case2 b => simp [toHexText, hexOctets]
  | case3 b c r ih =>
    have ih := ih (List.cons_ne_nil c r)
    simp only [toHexText, if_true] at ih ⊢
    rw [hexOctets_cons true b _ (List.cons_ne_nil c r), List.append_assoc, ih, List.flatMap_cons]
    rfl

theorem hexFrame_none (f : Frame) : hexFrame f .none = (serialize f).flatMap hex2 := by
  rw [hexFrame, toHexText, hexOctets_false]
  exact List.append_nil _

theorem hexFrame_beforeCk (f : Frame) :
    hexFrame f .beforeCk = (beforeChecksum f).flatMap hex2 ++ [space] ++ hex2 (frameChecksum f) := by
  have hpre : memRead (serialize f) 0 ((serialize f).length - 1) = beforeChecksum f := by
    rw [serialize_length_eq_succ, Nat.add_sub_cancel, serialize_eq_append_checksum]
    exact List.take_left
  have hck : memRead (serialize f) ((serialize f).length - 1) 1 = [frameChecksum f] := by
    rw [serialize_length_eq_succ, Nat.add_sub_cancel, serialize_eq_append_checksum]
    exact memRead_append_right ..
  rw [hexFrame, hpre, hck, toHexText, hexOctets_false]
  rfl

theorem hexFrame_all (f : Frame) :
    hexFrame f .all = (serialize f).flatMap fun b => hex2 b ++ [space] :=
  toHexText_spaced (serialize_ne_nil f)

/-! ### A frame received byte by byte -/

theorem rxs_singleton (b : Byte) (s : State) : rxs [b] s = receive b (s.take s.input) := by
  rw [rxs_cons]
  cases receive b (s.take s.input) <;> rfl

/-- A length field of 1 leaves no body: the checksum byte is next (R154). -/
theorem rxType_of_length_one (t : Byte) {s : State} (h : s.rxLen = 1) :
    rxType t s = { s with rxType := t, rxSum := t, rxBody := [], rxCount := 0, rxState := .cksum } := by
  rw [rxType, if_neg (by simp [h]), if_pos h]
  rfl

/-- A length field above 1 asks for body bytes (R154). -/
theorem rxType_of_one_lt_length (t : Byte) {s : State} (h : 1 < s.rxLen.toNat) :
    rxType t s = { s with rxType := t, rxSum := t, rxBody := [], rxCount := 0, rxState := .body } := by
  rw [rxType, if_neg fun h0 => by simp [h0] at h, if_neg fun h1 => by simp [h1] at h]
  rfl

/-- The checksum byte appends the event of the frame's dispatch (R156). -/
theorem receive_checksum {ck : Byte} {s : State} {ev : Event} (hs : s.rxState = .cksum)
    (hev : dispatchEvent (decodeRx s.params s.rxType s.rxLen s.rxBody s.rxSum ck) = some ev) :
    receive ck s = .next (s.endFrame ev) := by
  simp only [receive, hs, rxCksum, hev]

/-- The state in which the checksum byte is awaited, once the bytes of a frame from its delimiter through the last byte
of `body` have been received in the delimiter search (R151 to R155). -/
def State.awaitingChecksum (s : State) (len : Word16) (t : Byte) (body : Bytes) : State :=
  { s with
    rxState := .cksum
    rxLen := len
    rxType := t
    rxBody := body.take s.params.rxBodyCap
    rxCount := BitVec.ofNat 16 body.length
    rxSum := byteSum (t :: body)
    ret := none }

@[simp] theorem State.awaitingChecksum_log (s : State) (len : Word16) (t : Byte) (body : Bytes) :
    (s.awaitingChecksum len t body).log = s.log := rfl

/-- The bytes of a frame before its checksum, received in the delimiter search: the header (R151 to R154) and then a
body of as many bytes as the length field asks for (R155). -/
theorem rxs_until_checksum {len : Word16} (t : Byte) {body : Bytes} {s : State} (hs : s.rxState = .awaitDelim)
    (hlen : len.toNat = body.length + 1) :
    rxs ([0x7E] ++ enc16 len ++ t :: body) s = .next (s.awaitingChecksum len t body) := by
  have hheader : rxs ([0x7E] ++ enc16 len ++ [t]) s =
      .next (rxType t { s with ret := none, rxLen := len, rxState := .type }) := by
    have h := rxs_header (len.extractLsb' 8 8) (len.extractLsb' 0 8) t hs
    rwa [enc16_digits, BitVec.ofNat_toNat, BitVec.setWidth_eq] at h
  rw [List.append_cons, rxs_append, hheader]
  cases body with
  | nil =>
    obtain rfl : len = 1 := BitVec.eq_of_toNat_eq hlen
    rw [rxType_of_length_one t rfl]
    simp [rxs, runOps, State.awaitingChecksum, byteSum_cons]
  | cons b body =>
    rw [List.length_cons] at hlen
    rw [rxType_of_one_lt_length t (show 1 < len.toNat by omega)]
    dsimp only
    rw [rxs_body (b :: body) rfl rfl (by simp [hlen]) (by simp [hlen])]
    simp [hlen, State.awaitingChecksum, byteSum_cons t]

/-- A whole frame received in the delimiter search appends the one event of its dispatch (R156). -/
theorem rxs_frame {len : Word16} {t ck : Byte} {body : Bytes} {s : State} {ev : Event}
    (hs : s.rxState = .awaitDelim) (hlen : len.toNat = body.length + 1)
    (hev : dispatchEvent (decodeRx s.params t len (body.take s.params.rxBodyCap) (byteSum (t :: body)) ck) = some ev) :
    rxs ([0x7E] ++ enc16 len ++ t :: body ++ [ck]) s = .next ((s.awaitingChecksum len t body).endFrame ev) := by
  rw [rxs_append, rxs_until_checksum t hs hlen]
  exact (rxs_singleton ck _).trans (receive_checksum (s := s.awaitingChecksum len t body) rfl hev)

/-- The serialization of a well-formed frame received in the delimiter search appends the event of its dispatch: the
length field read is `FRAME_LENGTH`, and the bytes summed are those under the checksum (R131, R132, R156). -/
theorem rxs_serialize {f : Frame} {t : Byte} {body : Bytes} {s : State} {ev : Event} (hs : s.rxState = .awaitDelim)
    (hf : frameForm s.params.cap f = true) (hbody : frameBody f = t :: body)
    (hev : dispatchEvent (decodeRx s.params t (frameLength f) (body.take s.params.rxBodyCap)
      (byteSum (t :: body)) (checksum (t :: body))) = some ev) :
    rxs (serialize f) s = .next ((s.awaitingChecksum (frameLength f) t body).endFrame ev) := by
  rw [serialize, hbody]
  exact rxs_frame hs (by rw [frameLength_toNat hf, hbody, List.length_cons]) hev

/-! ### DECODE_RX of a serialized frame -/

theorem decodeRx_of_verdict_ok {p : Params} {t : Byte} {len : Word16} {sum ck : Byte} (hlen : len ≠ 0)
    (h : decodeVerdict p t len sum ck = .ok) (body : Bytes) :
    decodeRx p t len body sum ck = some (.decoded (readRecord p t len body sum ck)) := by
  rw [decodeRx, if_neg hlen, h]

/-- The checksum of the received bytes is right whether or not it is verified, so a type other than 0x90 is what
DECODE_RX finds (R157). -/
theorem decodeRx_of_wrong_type {p : Params} {t : Byte} {len : Word16} (hlen : len ≠ 0) (ht : t ≠ 0x90)
    (body summed : Bytes) :
    decodeRx p t len body (byteSum summed) (checksum summed) = some (.err .unknownType) := by
  have hverdict : decodeVerdict p t len (byteSum summed) (checksum summed) = .unknownType := by
    rw [decodeVerdict, if_neg fun h => h.2 (byteSum_add_checksum summed), if_pos ht]
  rw [decodeRx, if_neg hlen, hverdict]

/-- The bytes of a ReceivePacket after its type (R73). -/
def rxFields (f : RxFrame) : Bytes := enc64 f.src64 ++ (enc16 f.src16 ++ (f.options :: f.data))

theorem rxBody_eq_cons (f : RxFrame) : rxBody f = 0x90 :: rxFields f := by
  simp [rxBody, rxFields]

theorem rxFields_length (f : RxFrame) : (rxFields f).length = 11 + f.data.length := by
  simp [rxFields]
  omega

/-- The fields of a ReceivePacket are read back from their places, none of them at an open value (R157). -/
theorem readRecord_rxFields {p : Params} {f : RxFrame} (h : rxForm p.cap f = true) (t : Byte) (len : Word16)
    (sum ck : Byte) :
    readRecord p t len (rxFields f) sum ck =
      { src64 := f.src64, src16 := f.src16, options := f.options, data := f.data, rxLength := len,
        rxChecksum := ck } := by
  obtain ⟨hnz, hcap⟩ := payloadForm_iff.mp h
  have hdata : takeZ (memRead (rxFields f) 11 ((rxFields f).length - 11)) = f.data := by
    have hread : memRead (rxFields f) 11 ((rxFields f).length - 11) = f.data := by
      rw [rxFields_length, Nat.add_sub_cancel_left]
      exact List.take_length
    rw [hread, takeZ_of_no_zero hnz]
  rw [readRecord_fields (dec64_eq_some_iff.mpr rfl) (dec16_eq_some_iff.mpr rfl) rfl (hdata ▸ hcap), hdata]

/-- Receiving the serialization of a well-formed ReceivePacket gives that packet back, whole next state (R135). -/
theorem rxs_serializeRx {f : RxFrame} {s : State} (hs : s.rxState = .awaitDelim)
    (hf : rxForm s.params.cap f = true) :
    rxs (serializeRx f) s =
      .next ((s.awaitingChecksum (frameLength (.rx f)) 0x90 (rxFields f)).endFrame (.rxFrame
        { src64 := f.src64, src16 := f.src16, options := f.options, data := f.data,
          rxLength := frameLength (.rx f), rxChecksum := frameChecksum (.rx f) })) := by
  have hlen := frameLength_rx_toNat hf
  have hbodyCap : s.params.rxBodyCap = 11 + s.params.cap := rfl
  have hcap := (payloadForm_iff.mp hf).2
  have hstored : (rxFields f).take s.params.rxBodyCap = rxFields f :=
    List.take_of_length_le (by rw [rxFields_length]; omega)
  have hverdict : decodeVerdict s.params 0x90 (frameLength (.rx f)) (byteSum (rxBody f)) (checksum (rxBody f)) = .ok :=
    (decodeVerdict_ok_iff ..).mpr ⟨fun _ => byteSum_add_checksum _, rfl, by omega, by omega⟩
  refine rxs_serialize (f := .rx f) hs hf (rxBody_eq_cons f) ?_
  rw [hstored, ← rxBody_eq_cons, decodeRx_of_verdict_ok (fun h0 => by simp [h0] at hlen; omega) hverdict,
    readRecord_rxFields hf]
  rfl

/-- The bytes of a TransmitRequest after its type (R74). -/
def txFields (q : TxRequest) : Bytes :=
  q.frameId :: (enc64 q.dst64 ++ (enc16 q.dst16 ++ (q.radius :: q.options :: q.data)))

theorem txBody_eq_cons (q : TxRequest) : txBody q = 0x10 :: txFields q := by
  simp [txBody, txFields]

/-- Receiving the serialization of a well-formed TransmitRequest drops it as an unknown type, whole next state (R78). -/
theorem rxs_serializeTx {q : TxRequest} {s : State} (hs : s.rxState = .awaitDelim)
    (hq : txForm s.params.cap q = true) :
    rxs (serializeTx q) s =
      .next ((s.awaitingChecksum (frameLength (.tx q)) 0x10 (txFields q)).endFrame (.rxDrop .unknownType)) := by
  have hlen := frameLength_tx_toNat hq
  refine rxs_serialize (f := .tx q) hs hq (txBody_eq_cons q) ?_
  rw [decodeRx_of_wrong_type (fun h0 => by simp [h0] at hlen; omega) (by decide)]
  rfl

/-! ### The statements -/

/-- Settles O44: the packet's fields are read back from its serialization, and a TransmitRequest's type is unknown. -/
theorem serializedPacketsRoundTrip : Obligations.SerializedPacketsRoundTrip :=
  ⟨fun _ _ hs hf => ⟨_, rxs_serializeRx hs hf, rfl, by simp⟩,
    fun _ _ hs hq => ⟨_, rxs_serializeTx hs hq, rfl, by simp⟩⟩

/-- Settles O25: `takeZ` of the text is its part before the first 0x00. -/
theorem txSetDataCopiesUpToTheFirstZero : Obligations.TxSetDataCopiesUpToTheFirstZero := by
  intro q pre tail s hq hpre htail
  rw [exec_txSetData hq, takeZ_append hpre htail]
  refine ⟨fun hfits => ⟨?_, payloadForm_iff.mpr ⟨hpre, hfits⟩⟩, fun hlarge => ?_⟩
  · rw [if_neg (Nat.not_lt.mpr hfits)]
    rfl
  · rw [if_pos hlarge]
    rfl

/-- Settles O27, by the sum over the parts of each body. -/
theorem frameChecksumCoversTypeToPayload : Obligations.FrameChecksumCoversTypeToPayload := by
  constructor
  · intro f s hf
    rw [exec_frameChecksum (f := .rx f) hf, ← rxBody_sum]
    rfl
  · intro q s hq
    rw [exec_frameChecksum (f := .tx q) hq, ← txBody_sum]
    rfl

/-- Settles O28: the two length bytes are the digits of the derived length. -/
theorem serializationLaysOutTheFrame : Obligations.SerializationLaysOutTheFrame := by
  constructor
  · intro q s hq
    refine ⟨_, _, _, _, exec_serializeTx hq, ?_, (enc16_digits _).trans (frameLength_tx_toNat hq), rfl, ?_⟩
    · simp [serializeTx, serialize, frameBody, txBody, enc16]
    · rw [serializeTx, serialize_length, frameBody, txBody_length]
      omega
  · intro f s hf
    refine ⟨_, _, _, _, exec_serializeRx hf, ?_, (enc16_digits _).trans (frameLength_rx_toNat hf), rfl, ?_⟩
    · simp [serializeRx, serialize, frameBody, rxBody, enc16]
    · rw [serializeRx, serialize_length, frameBody, rxBody_length]
      omega

/-- Settles O29: `w` is the serialization without its checksum byte. -/
theorem hexFrameSpacesByMode : Obligations.HexFrameSpacesByMode := by
  intro f s hf
  refine ⟨beforeChecksum f, frameChecksum f, serialize_eq_append_checksum f, ?_, ?_, ?_⟩
  · rw [exec_hexFrame hf, hexFrame_none]
    rfl
  · rw [exec_hexFrame hf, hexFrame_beforeCk]
    rfl
  · rw [exec_hexFrame hf, hexFrame_all]
    rfl

/-- Settles O30: the length field and the body are read back from their places, and the texts' lengths follow from their
closed forms. -/
theorem serializedFramesObeyTheLaws : Obligations.SerializedFramesObeyTheLaws := by
  intro f cap hf
  refine ⟨⟨frameLength f, ?_, rfl, ?_⟩, ?_, ?_, ?_, ?_, ?_⟩
  · rw [memRead_serialize_length_field]
    exact dec16_eq_some_iff.mpr rfl
  · rw [frameLength_toNat hf, serialize_length, Nat.add_sub_cancel]
  · rw [memRead_serialize_body, serialize_eq_append_checksum, List.getLast?_concat]
    rfl
  · rw [← byteSum_toNat, byteSum_serialize_drop_header]
    rfl
  · simp [hexFrame_none, mul_comm]
  · simp [hexFrame_beforeCk, serialize_length_eq_succ, mul_comm, mul_add]
  · simp [hexFrame_all]
    omega

/-- Settles O23. -/
theorem txConstructorsGiveDefaults : Obligations.TxConstructorsGiveDefaults := fun _ _ _ => ⟨rfl, rfl, rfl⟩

/-- Settles O24. -/
theorem rxConstructorsGiveDefaults : Obligations.RxConstructorsGiveDefaults := fun _ _ _ => ⟨rfl, rfl, rfl⟩

/-- Settles O26: the capacity's bound keeps the length below 2 ^ 16 (R129). -/
theorem frameLengthCountsTypeFieldsAndPayload : Obligations.FrameLengthCountsTypeFieldsAndPayload :=
  ⟨fun _ _ hf => ⟨_, exec_frameLength hf, frameLength_rx_toNat hf⟩,
    fun _ _ hq => ⟨_, exec_frameLength hq, frameLength_tx_toNat hq⟩⟩

end Sys2Proof.Machine

/-! Proofs of the receive parser statements (spec/42_rx_parser.md R150 to R161): what each receive instruction does to
the state, the four tests of DECODE_RX, and a frame followed from its delimiter to its one event. -/

namespace Sys2Proof.Machine

/-! ### RX_BYTE by the parser's place, as a state update -/

theorem exec_rxByte (b : Byte) (s : State) : exec (.rxByte b) s = receive b s :=
  rfl

theorem exec_rxByte_of_awaitDelim {s : State} (h : s.rxState = .awaitDelim) (b : Byte) :
    exec (.rxByte b) s = .next (rxAwaitDelim b s) := by
  rw [exec_rxByte, receive, h]

theorem exec_rxByte_of_lenHi {s : State} (h : s.rxState = .lenHi) (b : Byte) :
    exec (.rxByte b) s = .next (rxLenHi b s) := by
  rw [exec_rxByte, receive, h]

theorem exec_rxByte_of_lenLo {s : State} (h : s.rxState = .lenLo) (b : Byte) :
    exec (.rxByte b) s = .next (rxLenLo b s) := by
  rw [exec_rxByte, receive, h]

theorem exec_rxByte_of_type {s : State} (h : s.rxState = .type) (b : Byte) :
    exec (.rxByte b) s = .next (rxType b s) := by
  rw [exec_rxByte, receive, h]

theorem exec_rxByte_of_body {s : State} (h : s.rxState = .body) (b : Byte) :
    exec (.rxByte b) s = .next (rxBodyByte b s) := by
  rw [exec_rxByte, receive, h]

/-- The high byte of the length stands alone until the low byte is or-ed in (R152). -/
theorem rxLenHi_eq (b : Byte) (s : State) :
    rxLenHi b s = { s with rxLen := BitVec.ofNat 16 (b.toNat * 256), rxState := .lenLo } := by
  have hshift : b.setWidth 16 <<< 8 = BitVec.ofNat 16 (b.toNat * 256) := by simpa using length_of_bytes b 0
  rw [rxLenHi, hshift]

/-- A length field of 0 leaves no body and no checksum: the type byte is the frame's last (R154). -/
theorem rxType_of_length_zero (t : Byte) {s : State} (h : s.rxLen = 0) :
    rxType t s = { s with
      rxType := t, rxSum := t, rxBody := [], rxCount := 0, rxState := .awaitDelim,
      log := s.log ++ [.rxDrop .zeroLength] } := by
  rw [rxType, if_pos h]
  rfl

/-- A body byte as one update, its place in the body deciding only where the parser goes (R155). -/
theorem rxBodyByte_eq {s : State} (h : s.rxState = .body) (b : Byte) :
    rxBodyByte b s = { s with
      rxBody := memAppend s.rxBody s.params.rxBodyCap s.rxCount.toNat b
      rxCount := s.rxCount + 1
      rxSum := s.rxSum + b
      rxState := if s.rxCount.toNat + 1 = s.rxLen.toNat - 1 then .cksum else .body } := by
  rw [rxBodyByte]
  split_ifs
  · rfl
  · rw [← h]

/-! ### DECODE_RX by its verdict -/

theorem exec_decodeRx_of_some {t : Byte} {len : Word16} {body : Bytes} {sum ck : Byte} {s : State} {v : Value}
    (h : decodeRx s.params t len body sum ck = some v) :
    exec (.decodeRx t len body sum ck) s = .next (s.returns v) := by
  change execDecodeRx t len body sum ck s = _
  rw [execDecodeRx, h]

theorem decodeRx_of_verdict_ne_ok {p : Params} {t : Byte} {len : Word16} {sum ck : Byte} (hlen : len ≠ 0)
    (h : decodeVerdict p t len sum ck ≠ .ok) (body : Bytes) :
    decodeRx p t len body sum ck = some (.err (decodeVerdict p t len sum ck)) := by
  rw [decodeRx, if_neg hlen]
  split
  · exact absurd ‹_› h
  · rfl

theorem exec_decodeRx_of_verdict {e : ErrCode} {t : Byte} {len : Word16} {sum ck : Byte} {s : State}
    (hlen : len ≠ 0) (h : decodeVerdict s.params t len sum ck = e) (he : e ≠ .ok) (body : Bytes) :
    exec (.decodeRx t len body sum ck) s = .next { s with ret := some (.err e) } := by
  subst h
  exact exec_decodeRx_of_some (decodeRx_of_verdict_ne_ok hlen he body)

/-- The checksum test of R157 as a sum modulo 256. -/
theorem byte_add_ne_iff (a b : Byte) : a + b ≠ 0xFF ↔ (a.toNat + b.toNat) % 256 ≠ 0xFF := by
  rw [Ne, ← BitVec.toNat_inj, BitVec.toNat_add]
  rfl

section
variable {p : Params} {t : Byte} {len : Word16} {sum ck : Byte}

theorem decodeVerdict_checksumMismatch (h : p.verifyChecksum = true ∧ sum + ck ≠ 0xFF) :
    decodeVerdict p t len sum ck = .checksumMismatch := by
  rw [decodeVerdict, if_pos h]

theorem decodeVerdict_unknownType (h : ¬ (p.verifyChecksum = true ∧ sum + ck ≠ 0xFF)) (ht : t ≠ 0x90) :
    decodeVerdict p t len sum ck = .unknownType := by
  rw [decodeVerdict, if_neg h, if_pos ht]

theorem decodeVerdict_shortFrame (h : ¬ (p.verifyChecksum = true ∧ sum + ck ≠ 0xFF)) (ht : t = 0x90)
    (hlen : len.toNat - 1 < 11) : decodeVerdict p t len sum ck = .shortFrame := by
  rw [decodeVerdict, if_neg h, if_neg (not_not_intro ht), if_pos hlen]

theorem decodeVerdict_oversize (h : ¬ (p.verifyChecksum = true ∧ sum + ck ≠ 0xFF)) (ht : t = 0x90)
    (hlen : 11 + p.cap < len.toNat - 1) : decodeVerdict p t len sum ck = .oversize := by
  rw [decodeVerdict, if_neg h, if_neg (not_not_intro ht), if_neg (show ¬ len.toNat - 1 < 11 by omega),
    if_pos (show p.cap < len.toNat - 1 - 11 by omega)]

end

/-- The fields of a body that holds the eleven fixed bytes, and its payload up to the first 0x00 (R157). -/
theorem readRecord_of_fields {p : Params} {pre tail : Bytes} (hpre : ∀ b ∈ pre, b ≠ 0)
    (htail : tail = [] ∨ tail.head? = some 0) (hfits : pre.length ≤ p.cap) (t : Byte) (len : Word16) (sum ck : Byte)
    (a64 : Word64) (a16 : Word16) (o : Byte) :
    readRecord p t len (enc64 a64 ++ enc16 a16 ++ [o] ++ pre ++ tail) sum ck =
      { src64 := a64, src16 := a16, options := o, data := pre, rxLength := len, rxChecksum := ck } := by
  rw [List.append_assoc _ pre tail]
  have hdata : takeZ (memRead (enc64 a64 ++ enc16 a16 ++ [o] ++ (pre ++ tail)) 11
      ((enc64 a64 ++ enc16 a16 ++ [o] ++ (pre ++ tail)).length - 11)) = pre := by
    have hread : memRead (enc64 a64 ++ enc16 a16 ++ [o] ++ (pre ++ tail)) 11
        ((enc64 a64 ++ enc16 a16 ++ [o] ++ (pre ++ tail)).length - 11) = pre ++ tail :=
      List.take_length
    rw [hread, takeZ_append hpre htail]
  rw [readRecord_fields (dec64_eq_some_iff.mpr rfl) (dec16_eq_some_iff.mpr rfl) rfl (hdata.symm ▸ hfits), hdata]

/-- A frame whose length field is not 0 has an event at its dispatch (R156). -/
theorem exists_dispatchEvent {len : Word16} (h : len ≠ 0) (p : Params) (t : Byte) (body : Bytes) (sum ck : Byte) :
    ∃ ev, dispatchEvent (decodeRx p t len body sum ck) = some ev := by
  rw [← Option.ne_none_iff_exists', Ne, dispatchEvent_decodeRx, decodeRx_eq_none_iff]
  exact h

/-! ### Inside a frame

The log only grows, and the parser leaves a partially read frame only by appending an event. So where a run of bytes
ends with the log it began with, every part of it ended inside the frame. -/

/-- Inside a frame the parser is connected and not searching for a delimiter. -/
theorem partialFrame_ne {s : State} (h : s.partialFrame = true) : s.rxState ≠ .awaitDelim ∧ s.rxState ≠ .idle := by
  have hplace := (partialFrame_iff s).mp h
  constructor
  · intro hr
    simp [hr] at hplace
  · intro hr
    simp [hr] at hplace

theorem receive_log_grows {b : Byte} {s t : State} (h : receive b s = .next t) : s.log <+: t.log := by
  rcases receive_cases h with ⟨-, rfl⟩ | ⟨-, rfl⟩ | ⟨-, rfl⟩ | ⟨-, rfl⟩ | ⟨-, rfl⟩ | ⟨hr, rfl⟩ | ⟨-, ev, rfl, -⟩
  · exact List.prefix_rfl
  · unfold rxAwaitDelim
    split_ifs <;> exact List.prefix_rfl
  · exact List.prefix_rfl
  · exact List.prefix_rfl
  · unfold rxType
    split_ifs
    · exact List.prefix_append ..
    · exact List.prefix_rfl
    · exact List.prefix_rfl
  · rw [rxBodyByte_eq hr]
  · exact List.prefix_append ..

/-- A byte received inside a frame leaves the parser inside it and the log alone, or appends one event (R158). -/
theorem receive_of_partialFrame {b : Byte} {s t : State} (hs : s.partialFrame = true) (h : receive b s = .next t) :
    (t.partialFrame = true ∧ t.log = s.log) ∨ ∃ ev, t.log = s.log ++ [ev] := by
  rcases receive_cases h with ⟨hr, -⟩ | ⟨hr, -⟩ | ⟨-, rfl⟩ | ⟨-, rfl⟩ | ⟨-, rfl⟩ | ⟨hr, rfl⟩ | ⟨-, ev, rfl, -⟩
  · exact absurd hr (partialFrame_ne hs).2
  · exact absurd hr (partialFrame_ne hs).1
  · exact .inl ⟨rfl, rfl⟩
  · exact .inl ⟨rfl, rfl⟩
  · unfold rxType
    split_ifs
    · exact .inr ⟨_, rfl⟩
    · exact .inl ⟨rfl, rfl⟩
    · exact .inl ⟨rfl, rfl⟩
  · rw [rxBodyByte_eq hr]
    refine .inl ⟨?_, rfl⟩
    unfold State.partialFrame
    split_ifs <;> rfl
  · exact .inr ⟨ev, rfl⟩

/-- An RXS that gives a next state received its first byte and then the rest (R84). -/
theorem rxs_cons_next {b : Byte} {bs : Bytes} {s u : State} (h : rxs (b :: bs) s = .next u) :
    ∃ t, receive b (s.take s.input) = .next t ∧ rxs bs t = .next u := by
  rw [rxs_cons] at h
  split at h
  · exact ⟨_, ‹_›, h⟩
  · cases h
  · cases h

theorem rxs_log_grows {bs : Bytes} {s u : State} (h : rxs bs s = .next u) : s.log <+: u.log := by
  induction bs generalizing s with
  | nil =>
    cases h
    exact List.prefix_rfl
  | cons b bs ih =>
    obtain ⟨t, hb, hbs⟩ := rxs_cons_next h
    exact (receive_log_grows hb).trans (ih hbs)

/-- A run of bytes from inside a frame that appends no event was inside the frame after every part of it. -/
theorem rxs_part_partialFrame {a bs : Bytes} {s u : State} (hs : s.partialFrame = true)
    (h : rxs (a ++ bs) s = .next u) (hlog : u.log = s.log) :
    ∃ t, rxs a s = .next t ∧ t.partialFrame = true ∧ t.log = s.log := by
  induction a generalizing s with
  | nil => exact ⟨s, rfl, hs, rfl⟩
  | cons b a ih =>
    obtain ⟨v, hb, hrest⟩ := rxs_cons_next h
    rcases receive_of_partialFrame (s := s.take s.input) hs hb with ⟨hv, hvlog⟩ | ⟨ev, hvlog⟩
    · obtain ⟨t, ht, htp, htlog⟩ := ih hv hrest (hlog.trans hvlog.symm)
      refine ⟨t, ?_, htp, htlog.trans hvlog⟩
      rw [rxs_cons, hb]
      exact ht
    · have hle := (rxs_log_grows hrest).length_le
      simp [hvlog, hlog] at hle

/-- The bytes of a frame that have appended no event, cut anywhere after the delimiter, leave the parser inside the
frame (R158). -/
theorem rxs_take_partialFrame {bs : Bytes} {s u : State} (hs : s.rxState = .awaitDelim)
    (h : rxs (0x7E :: bs) s = .next u) (hlog : u.log = s.log) {n : Nat} (hn : 1 ≤ n) :
    ∃ t, rxs ((0x7E :: bs).take n) s = .next t ∧ t.log = s.log ∧ t.rxState ≠ .awaitDelim ∧ t.rxState ≠ .idle := by
  have hdelim : receive 0x7E (s.take s.input) = .next ((s.take s.input).goto .lenHi) :=
    exec_rxByte_of_awaitDelim (s := s.take s.input) hs 0x7E
  obtain ⟨m, rfl⟩ := Nat.exists_eq_add_of_le' hn
  obtain ⟨v, hv, hrest⟩ := rxs_cons_next h
  cases hdelim.symm.trans hv
  rw [← List.take_append_drop m bs] at hrest
  obtain ⟨t, ht, htp, htlog⟩ := rxs_part_partialFrame rfl hrest hlog
  refine ⟨t, ?_, htlog, partialFrame_ne htp⟩
  rw [List.take_succ_cons, rxs_cons, hdelim]
  exact ht

/-! ### Whole frames -/

/-- The length field as the two bytes received (R152, R153). -/
theorem ofNat_length_bytes (hi lo : Byte) : BitVec.ofNat 16 (hi.toNat * 256 + lo.toNat) = hi ++ lo := by
  rw [← append_byte_toNat, BitVec.ofNat_toNat, BitVec.setWidth_eq]

/-- The first three bytes of a frame: its delimiter and its length field (R151 to R153). -/
theorem rxs_length_field (hi lo : Byte) {s : State} (hs : s.rxState = .awaitDelim) :
    rxs [0x7E, hi, lo] s = .next { s with
      ret := none, rxLen := BitVec.ofNat 16 (hi.toNat * 256 + lo.toNat), rxState := .type } := by
  obtain ⟨p, r, len, ty, body, cnt, sum, q, cur, log, line, ret, inp⟩ := s
  obtain rfl : r = .awaitDelim := hs
  rw [← length_of_bytes]
  rfl

/-! ### The statements -/

/-- Settles O43: `rxs_frame` gives the event of the whole frame, and the bytes before the last one append none, so
`rxs_take_partialFrame` holds of each of their prefixes. -/
theorem frameConsumesItsLength : Obligations.FrameConsumesItsLength := by
  refine ⟨fun hi lo t ck body frame s hs hlen hbody hframe => ?_, fun t s hs => ⟨?_, fun n hn hn4 => ?_⟩⟩
  · rw [ofNat_length_bytes]
    have hL : (hi ++ lo).toNat = body.length + 1 := by
      rw [append_byte_toNat]
      omega
    have hL0 : hi ++ lo ≠ (0 : Word16) := fun h0 => by simp [h0] at hL
    have hparts : frame = [0x7E] ++ enc16 (hi ++ lo) ++ t :: body ++ [ck] := by
      rw [hframe, enc16_append]
      rfl
    have hlength : frame.length = hi.toNat * 256 + lo.toNat + 4 := by
      simp [hframe]
      omega
    obtain ⟨ev, hev⟩ := exists_dispatchEvent hL0 s.params t (body.take s.params.rxBodyCap) (byteSum (t :: body)) ck
    have hrun := rxs_frame hs hL hev
    rw [← hparts] at hrun
    refine ⟨hlength, ⟨_, ev, hrun, rfl, rfl, rfl, hev⟩, fun n hn hlt => ?_⟩
    rw [hparts, List.length_append] at hlt
    rw [hparts, List.take_append_of_le_length (Nat.le_of_lt_succ hlt)]
    exact rxs_take_partialFrame hs (rxs_until_checksum t hs hL) rfl hn
  · refine ⟨_, rxs_header 0 0 t hs, ?_⟩
    rw [rxType_of_length_zero t rfl]
    exact ⟨rfl, rfl, rfl⟩
  · rw [show ([0x7E, 0, 0, t] : Bytes) = [0x7E, 0, 0] ++ [t] from rfl,
      List.take_append_of_le_length (Nat.le_of_lt_succ hn4)]
    exact rxs_take_partialFrame hs (rxs_length_field 0 0 hs) rfl hn

/-- Settles O33. -/
theorem lengthIsReadHighByteFirst : Obligations.LengthIsReadHighByteFirst := by
  refine ⟨fun b s hs => ?_, fun b s hs => exec_rxByte_of_lenLo hs b, fun hi lo s hs =>
    ⟨rxLenHi hi s, exec_rxByte_of_lenHi hs hi, ?_⟩⟩
  · rw [exec_rxByte_of_lenHi hs, rxLenHi_eq]
  · rw [exec_rxByte_of_lenLo rfl, ← length_of_bytes]
    rfl

/-- Settles O35: the count stays below the length field, so it does not wrap. -/
theorem bodyByteIsStoredCountedSummed : Obligations.BodyByteIsStoredCountedSummed := by
  intro b s hs hcount
  have hlen := s.rxLen.isLt
  refine ⟨rxBodyByte b s, exec_rxByte_of_body hs b, ?_⟩
  rw [rxBodyByte_eq hs]
  refine ⟨?_, BitVec.toNat_add .., memAppend_room b, memAppend_full b, fun h => if_pos h, fun h => if_neg h, rfl⟩
  rw [BitVec.toNat_add]
  exact Nat.mod_eq_of_lt (by simp; omega)

/-- Settles O36: the invariant's length field of at least 1 gives DECODE_RX a value, and `decodeRx_cases` says which. -/
theorem checksumByteDispatchesTheFrame : Obligations.ChecksumByteDispatchesTheFrame := by
  intro b s hinv hs
  obtain ⟨-, hrx, -, -⟩ := hinv
  obtain ⟨hlen, -, -⟩ := (rxInv_cksum hs).mp hrx
  have hlen0 : s.rxLen ≠ 0 := fun h0 => by simp [h0] at hlen
  obtain ⟨v, hv⟩ := Option.ne_none_iff_exists'.mp
    (mt (decodeRx_eq_none_iff s.params s.rxType s.rxLen s.rxBody s.rxSum b).mp hlen0)
  rcases decodeRx_cases hv with ⟨e, rfl, -, he⟩ | ⟨r, rfl, -⟩
  · refine .inr ⟨e, ?_, exec_decodeRx_of_some hv, receive_checksum hs (by rw [hv]; rfl)⟩
    rintro rfl
    cases he
  · exact .inl ⟨r, exec_decodeRx_of_some hv, receive_checksum hs (by rw [hv]; rfl)⟩

/-- Settles O37: one verdict for each test that fails, and `readRecord_of_fields` where all pass. -/
theorem decodeRxTestsThenReads : Obligations.DecodeRxTestsThenReads := by
  intro t len body sum ck s hlen
  have hlen0 : len ≠ 0 := fun h0 => by simp [h0] at hlen
  rw [← byte_add_ne_iff]
  refine ⟨fun hck => ?_, fun hck => ⟨fun ht => ?_, fun ht hshort => ?_, fun ht hlong => ?_, ?_⟩⟩
  · exact exec_decodeRx_of_verdict hlen0 (decodeVerdict_checksumMismatch hck) (by decide) body
  · exact exec_decodeRx_of_verdict hlen0 (decodeVerdict_unknownType hck ht) (by decide) body
  · exact exec_decodeRx_of_verdict hlen0 (decodeVerdict_shortFrame hck ht hshort) (by decide) body
  · exact exec_decodeRx_of_verdict hlen0 (decodeVerdict_oversize hck ht hlong) (by decide) body
  · rintro a64 a16 o pre tail ht hmin hmax rfl hpre htail hfits
    have hok : decodeVerdict s.params t len sum ck = .ok := (decodeVerdict_ok_iff ..).mpr
      ⟨fun hv => by_contra fun hne => hck ⟨hv, hne⟩, ht, hmin, hmax⟩
    rw [exec_decodeRx_of_some (decodeRx_of_verdict_ok hlen0 hok _), readRecord_of_fields hpre htail hfits]
    rfl

/-- Settles O32. -/
theorem delimiterSearchDiscardsOtherBytes : Obligations.DelimiterSearchDiscardsOtherBytes := by
  intro b s hs
  rw [exec_rxByte_of_awaitDelim hs, rxAwaitDelim]
  refine ⟨fun hb => ?_, fun hb => ?_⟩
  · rw [if_pos hb]
    rfl
  · rw [if_neg hb]

/-- Settles O34. -/
theorem typeByteStartsTheBody : Obligations.TypeByteStartsTheBody := by
  intro b s hs
  rw [exec_rxByte_of_type hs]
  refine ⟨fun h0 => ?_, fun h1 => ?_, fun h2 => ?_⟩
  · rw [rxType_of_length_zero b (BitVec.eq_of_toNat_eq h0)]
  · rw [rxType_of_length_one b (BitVec.eq_of_toNat_eq h1)]
  · rw [rxType_of_one_lt_length b h2]

/-- Settles O39. -/
theorem readErrorAbandonsTheFrame : Obligations.ReadErrorAbandonsTheFrame :=
  fun _ => ⟨fun hidle => if_pos hidle, fun hne => if_neg hne⟩

/-- Settles O40: `partialFrame_iff` names the five places where the timeout is enabled. -/
theorem readTimeoutAbandonsTheFrame : Obligations.ReadTimeoutAbandonsTheFrame := by
  intro s
  constructor
  · intro hen hplace
    exact if_pos (by rw [(partialFrame_iff s).mpr hplace, hen]; rfl)
  · intro hoff t h
    have hdisabled : ¬ (s.partialFrame && s.params.readTimeoutEn) = true := by
      rw [Bool.and_eq_true]
      rintro ⟨hpartial, hen⟩
      rcases hoff with hoff | hidle | hsearch
      · exact Bool.false_ne_true (hoff.symm.trans hen)
      · exact (partialFrame_ne hpartial).2 hidle
      · exact (partialFrame_ne hpartial).1 hsearch
    change execRxTimeout s = _ at h
    rw [execRxTimeout, if_neg hdisabled] at h
    cases h

end Sys2Proof.Machine

/-! Proofs of the host command and transmit event statements (spec/43_tx_and_control.md R180 to R184): what each of the
five instructions does to the state by its place: connected or not, the queue full or not, and the work a transmit event
acts on. -/

namespace Sys2Proof.Machine

/-! ### The host commands as state updates -/

theorem not_connected_of_idle {s : State} (h : s.rxState = .idle) : ¬ s.connected = true :=
  fun hc => (connected_iff s).mp hc h

theorem exec_connect_of_connected {s : State} (h : s.rxState ≠ .idle) (openOk : Bool) :
    exec (.connect openOk) s = .next (s.returns (.status .alreadyConnected)) :=
  if_pos ((connected_iff s).mpr h)

theorem exec_connect_of_idle {s : State} (h : s.rxState = .idle) (openOk : Bool) :
    exec (.connect openOk) s =
      if openOk then .next (s.clearParser.returns (.status .ok)) else .next (s.returns (.status .connectionError)) :=
  if_neg (not_connected_of_idle h)

theorem exec_stop_of_connected {s : State} (h : s.rxState ≠ .idle) :
    exec .stop s = .next (s.shutDown.returns (.status .ok)) :=
  if_pos ((connected_iff s).mpr h)

theorem exec_stop_of_idle {s : State} (h : s.rxState = .idle) : exec .stop s = .next (s.returns (.status .ok)) :=
  if_neg (not_connected_of_idle h)

theorem exec_send_of_idle {q : TxRequest} {s : State} (hq : txForm s.params.cap q = true) (h : s.rxState = .idle) :
    exec (.send q) s = .next (s.returns (.status .notConnected)) := by
  change execSend q s = _
  rw [execSend, if_pos hq, if_neg (not_connected_of_idle h)]

theorem exec_send_of_connected {q : TxRequest} {s : State} (hq : txForm s.params.cap q = true)
    (h : s.rxState ≠ .idle) :
    exec (.send q) s =
      if s.queueFull then .next (s.returns (.status .queueFull))
      else .next ((s.enqueue q (serializeTx q)).returns (.status .ok)) := by
  change execSend q s = _
  rw [execSend, if_pos hq, if_pos ((connected_iff s).mpr h)]

/-! ### The work a transmit event acts on -/

theorem nextWork_of_txCur {s : State} {w : TxWork} (h : s.txCur = some w) : s.nextWork = some (w, s.txQueue) := by
  rw [State.nextWork, h]

theorem nextWork_of_txQueue {s : State} {j : TxJob} {js : List TxJob} (hcur : s.txCur = none)
    (hqueue : s.txQueue = j :: js) :
    s.nextWork = some ({ req := j.req, bytes := j.bytes, idx := 0 }, js) := by
  rw [State.nextWork, hcur, hqueue]

theorem nextWork_eq_none {s : State} (hcur : s.txCur = none) (hqueue : s.txQueue = []) : s.nextWork = none := by
  rw [State.nextWork, hcur, hqueue]

/-! ### The transmit events as state updates -/

/-- TX_BYTE on work that holds a byte at its index: the byte goes on the line, and the job ends or its index moves on
(R183). -/
theorem exec_txByte_of_nextWork {s : State} {w : TxWork} {queue : List TxJob} {b : Byte}
    (h : s.nextWork = some (w, queue)) (hb : w.bytes[w.idx]? = some b) :
    exec .txByte s =
      if w.idx + 1 = w.bytes.length then .next (((s.withQueue queue).out b).endJob w.req .ok)
      else .next { (s.withQueue queue).out b with txCur := some { w with idx := w.idx + 1 } } := by
  change execTxByte s = _
  simp only [execTxByte, h, memRead_one hb]

theorem exec_txByte_of_nextWork_none {s : State} (h : s.nextWork = none) :
    exec .txByte s = .refused (.notEnabled "TX_BYTE") := by
  change execTxByte s = _
  rw [execTxByte, h]

theorem exec_txError_of_nextWork {s : State} {w : TxWork} {queue : List TxJob} (h : s.nextWork = some (w, queue)) :
    exec .txError s = .next ((s.withQueue queue).endJob w.req .transportWrite) := by
  change execTxError s = _
  rw [execTxError, h]

theorem exec_txError_of_nextWork_none {s : State} (h : s.nextWork = none) :
    exec .txError s = .refused (.notEnabled "TX_ERROR") := by
  change execTxError s = _
  rw [execTxError, h]

/-! ### The statements -/

/-- Settles O49: `exec_txByte_of_nextWork` at the work in flight and at the head of the queue; whether the byte is the
job's last decides its branch. -/
theorem txByteTakesTheNextByte : Obligations.TxByteTakesTheNextByte := by
  refine ⟨fun s w b hcur hb => ?_, fun s j js b hcur hqueue hb => ?_, fun s t hcur hqueue => ?_⟩
  · rw [exec_txByte_of_nextWork (nextWork_of_txCur hcur) hb]
    exact ⟨fun hlast => if_pos hlast, fun hmore => if_neg hmore⟩
  · rw [exec_txByte_of_nextWork (nextWork_of_txQueue hcur hqueue) hb, hcur]
    exact ⟨fun hlast => if_pos hlast.symm, fun hmore => if_neg hmore.symm⟩
  · rw [exec_txByte_of_nextWork_none (nextWork_eq_none hcur hqueue)]
    exact nofun

/-- Settles O46. -/
theorem connectOpensOnce : Obligations.ConnectOpensOnce :=
  fun _ => ⟨fun openOk hne => exec_connect_of_connected hne openOk, fun hidle => exec_connect_of_idle hidle false,
    fun hidle => exec_connect_of_idle hidle true⟩

/-- Settles O47: connected, `queueFull_iff` decides between turning the request away and queueing it. -/
theorem sendQueuesTheSerialization : Obligations.SendQueuesTheSerialization := by
  intro q s hq
  refine ⟨fun hidle => exec_send_of_idle hq hidle, fun hne hfull => ?_, fun hne hroom => ?_⟩
  · rw [exec_send_of_connected hq hne]
    exact if_pos ((queueFull_iff s).mpr hfull)
  · rw [exec_send_of_connected hq hne]
    exact if_neg (mt (queueFull_iff s).mp hroom)

/-- Settles O48. -/
theorem stopDropsEverythingSilently : Obligations.StopDropsEverythingSilently :=
  fun _ => ⟨exec_stop_of_idle, exec_stop_of_connected⟩

/-- Settles O50: `exec_txError_of_nextWork` at the work in flight and at the head of the queue. -/
theorem txErrorEndsTheJob : Obligations.TxErrorEndsTheJob := by
  refine ⟨fun s w hcur => ?_, fun s j js hcur hqueue => ?_, fun s t hcur hqueue => ?_⟩
  · exact exec_txError_of_nextWork (nextWork_of_txCur hcur)
  · rw [exec_txError_of_nextWork (nextWork_of_txQueue hcur hqueue), hcur]
    rfl
  · rw [exec_txError_of_nextWork_none (nextWork_eq_none hcur hqueue)]
    exact nofun

end Sys2Proof.Machine

/-! Proofs of the reset statements (spec/70_reset_and_hazards.md R240, R241). -/

namespace Sys2Proof.Machine

/-- Settles O8: the `State.init_*` lemmas, one for each field in the order of R241's table, then the parameters (R240). -/
theorem resetStateFieldByField : Obligations.ResetStateFieldByField :=
  fun p => ⟨State.init_rxState p, State.init_rxLen p, State.init_rxType p, State.init_rxBody p, State.init_rxCount p,
    State.init_rxSum p, State.init_txQueue p, State.init_txCur p, State.init_log p, State.init_params p⟩

end Sys2Proof.Machine

/-! Proofs of the step and encoding statements (spec/00_scope.md R5, spec/30_encoding.md R71, R78, R81): what a step
does by its next input event, and the decoder and the encoder as inverses of each other. -/

namespace Sys2Proof

open Sys2Proof.Machine

/-! ### The decoder reads what the encoder writes -/

/-- Only a wire row has a place of its own in a frame; every other operation is written as a command word (R81). -/
theorem exists_encode_eq_command {i : Instr} (h : i.place = .elsewhere) : ∃ w, encode i = .command w := by
  cases i with
  | frameDelimiter | rxPacket | txRequest | unrecognizedType => cases h
  | _ => exact ⟨_, rfl⟩

/-- A type byte other than the two of the table is the row of unrecognized types (R78). -/
theorem decodeWire_unrecognizedType {t : Byte} (hrx : t ≠ Config.typeRx) (htx : t ≠ Config.typeTx) :
    decodeWire .frameType t = .unrecognizedType t := by
  rw [decodeWire, if_neg hrx, if_neg htx]

/-- A command's operand reader reads each operand back, and a wire row's byte is named by its place. -/
theorem decode_encode {p : Params} {i : Instr} (h : i.wf p = true) : decode i.place (encode i) = .ok i := by
  cases i with
  | frameDelimiter | rxPacket | txRequest => rfl
  | unrecognizedType t =>
    obtain ⟨hrx, htx⟩ : t ≠ Config.typeRx ∧ t ≠ Config.typeTx := by simpa [Instr.wf] using h
    exact congrArg Except.ok (decodeWire_unrecognizedType hrx htx)
  | beDec16 bs =>
    have hlen : bs.length = 2 := by simpa [Instr.wf] using h
    exact decodeCommand_of_reader (op := 0x13) rfl (by simp [readFixed_end hlen])
  | beDec64 bs =>
    have hlen : bs.length = 8 := by simpa [Instr.wf] using h
    exact decodeCommand_of_reader (op := 0x14) rfl (by simp [readFixed_end hlen])
  | _ =>
    dsimp only [encode, decode]
    exact decodeCommand_of_reader rfl (by simp)

/-- A command word is read alike at every place in a frame. -/
theorem decode_encode_anywhere {p : Params} {i : Instr} (h : i.wf p = true) (hplace : i.place = .elsewhere)
    (place : WirePlace) : decode place (encode i) = .ok i := by
  have hdec := decode_encode h
  obtain ⟨w, hw⟩ := exists_encode_eq_command hplace
  rw [hw] at hdec ⊢
  exact hdec

/-! ### What the decoder accepts is what the encoder writes

A reader consumes exactly what its encoder writes (`Consumes`). A command's reader then peels its operands off the word
one after another, and `WritesBack pre` says of it that `pre`, the bytes peeled off so far, and the bytes it goes on to
accept are together the encoding of the instruction it ends with. -/

/-- What the reader takes from the front of the bytes is what `put` writes for the value read. -/
def Consumes {α : Type} (rd : Reader α) (put : α → Bytes) : Prop :=
  ∀ bs x r, rd bs = some (x, r) → bs = put x ++ r

/-- The instruction read to the end of the bytes is encoded as `pre` and these bytes. -/
def WritesBack (pre : Bytes) (rd : Reader Instr) : Prop :=
  ∀ bs i, rd bs = some (i, []) → encode i = .command (pre ++ bs)

/-- Peeling off one operand adds its bytes to those already read. -/
theorem writesBack_bind {α : Type} {rd : Reader α} {put : α → Bytes} {k : α × Bytes → Option (Instr × Bytes)}
    {pre : Bytes} (hrd : Consumes rd put) (hk : ∀ x, WritesBack (pre ++ put x) fun r => k (x, r)) :
    WritesBack pre fun bs => rd bs >>= k := by
  intro bs i h
  obtain ⟨⟨x, r⟩, hx, hr⟩ := Option.bind_eq_some_iff.mp h
  rw [hrd bs x r hx, ← List.append_assoc]
  exact hk x r i hr

/-- Where no operand is left the bytes read are the whole word. -/
theorem writesBack_done {pre : Bytes} {i : Instr} (h : encode i = .command pre) :
    WritesBack pre fun bs => some (i, bs) := by
  rintro bs j hj
  obtain ⟨rfl, rfl⟩ := Prod.mk.inj (Option.some.inj hj)
  rw [h, List.append_nil]

theorem readU8_consumes : Consumes readU8 fun b => [b] := fun _ _ _ => readU8_eq

theorem readU16_consumes : Consumes readU16 putU16 := fun _ _ _ => readU16_eq

theorem readU64_consumes : Consumes readU64 putU64 := fun _ _ _ => readU64_eq

theorem readBool_consumes : Consumes readBool putBool := fun _ _ _ => readBool_eq

theorem readMode_consumes : Consumes readMode putMode := fun _ _ _ => readMode_eq

theorem readSeq_consumes : Consumes readSeq putSeq := fun _ _ _ => readSeq_eq

theorem readFixed_consumes (n : Nat) : Consumes (readFixed n) id := fun _ _ _ h => (readFixed_eq h).1

theorem readTx_consumes : Consumes readTx putTx := by
  intro bs q r h
  simp only [readTx, Option.bind_eq_bind, Option.bind_eq_some_iff, Prod.exists, Option.pure_def, Option.some.injEq,
    Prod.mk.injEq] at h
  obtain ⟨frameId, _, hid, dst64, _, h64, dst16, _, h16, radius, _, hrad, options, _, hopt, data, _, hdata,
    rfl, rfl⟩ := h
  rw [readU8_eq hid, readU64_eq h64, readU16_eq h16, readU8_eq hrad, readU8_eq hopt, readSeq_eq hdata]
  simp [putTx]

theorem readRx_consumes : Consumes readRx putRx := by
  intro bs f r h
  simp only [readRx, Option.bind_eq_bind, Option.bind_eq_some_iff, Prod.exists, Option.pure_def, Option.some.injEq,
    Prod.mk.injEq] at h
  obtain ⟨src64, _, h64, src16, _, h16, options, _, hopt, data, _, hdata, rfl, rfl⟩ := h
  rw [readU64_eq h64, readU16_eq h16, readU8_eq hopt, readSeq_eq hdata]
  simp [putRx]

theorem readFrame_consumes : Consumes readFrame putFrame := by
  intro bs f r h
  obtain ⟨⟨isTx, bs'⟩, htag, hrest⟩ := Option.bind_eq_some_iff.mp h
  rw [readBool_eq htag]
  cases isTx with
  | true =>
    obtain ⟨⟨q, r'⟩, hq, hf⟩ := Option.bind_eq_some_iff.mp hrest
    obtain ⟨rfl, rfl⟩ := Prod.mk.inj (Option.some.inj hf)
    rw [readTx_consumes _ _ _ hq]
    rfl
  | false =>
    obtain ⟨⟨g, r'⟩, hg, hf⟩ := Option.bind_eq_some_iff.mp hrest
    obtain ⟨rfl, rfl⟩ := Prod.mk.inj (Option.some.inj hf)
    rw [readRx_consumes _ _ _ hg]
    rfl

/-- The table of R81, its rows grouped by their operand records: the code and then the operands as the row's reader peels
them off are the encoding. -/
theorem operandReader_writesBack {op : Byte} {rd : Reader Instr} (h : operandReader op = some rd) :
    WritesBack [op] rd := by
  have hop : op = BitVec.ofNat 8 op.toNat := by simp
  unfold operandReader at h
  split at h
  case h_30 => cases h
  all_goals
    obtain rfl := Option.some.inj h
    rename_i hcode
    rw [hcode] at hop
    subst hop
  case h_2 | h_5 | h_6 | h_7 | h_8 | h_17 | h_21 => exact writesBack_done rfl
  case h_1 => exact writesBack_bind readBool_consumes fun _ => writesBack_done rfl
  case h_4 | h_9 => exact writesBack_bind readU8_consumes fun _ => writesBack_done rfl
  case h_10 => exact writesBack_bind readU16_consumes fun _ => writesBack_done rfl
  case h_11 | h_18 | h_22 => exact writesBack_bind readU64_consumes fun _ => writesBack_done rfl
  case h_12 => exact writesBack_bind (readFixed_consumes 2) fun _ => writesBack_done rfl
  case h_13 => exact writesBack_bind (readFixed_consumes 8) fun _ => writesBack_done rfl
  case h_14 | h_15 => exact writesBack_bind readSeq_consumes fun _ => writesBack_done rfl
  case h_3 | h_26 => exact writesBack_bind readTx_consumes fun _ => writesBack_done rfl
  case h_27 => exact writesBack_bind readRx_consumes fun _ => writesBack_done rfl
  case h_24 | h_25 => exact writesBack_bind readFrame_consumes fun _ => writesBack_done rfl
  case h_19 | h_23 =>
    exact writesBack_bind readU64_consumes fun _ => writesBack_bind readU16_consumes fun _ => writesBack_done rfl
  case h_20 =>
    exact writesBack_bind readTx_consumes fun _ => writesBack_bind readSeq_consumes fun _ => writesBack_done rfl
  case h_28 =>
    exact writesBack_bind readFrame_consumes fun _ => writesBack_bind readMode_consumes fun _ => writesBack_done rfl
  case h_16 =>
    exact writesBack_bind readSeq_consumes fun bs => writesBack_bind readBool_consumes fun sep =>
      writesBack_bind readBool_consumes fun trail => writesBack_done (by simp [encode])
  case h_29 =>
    exact writesBack_bind readU8_consumes fun t => writesBack_bind readU16_consumes fun len =>
      writesBack_bind readSeq_consumes fun body => writesBack_bind readU8_consumes fun sum =>
        writesBack_bind readU8_consumes fun ck => writesBack_done (by simp [encode])

/-- A command word has one meaning, and no byte of it is dropped. -/
theorem encode_of_decodeCommand {w : Bytes} {i : Instr} (h : decodeCommand w = .ok i) : encode i = .command w := by
  unfold decodeCommand at h
  split at h
  · cases h
  · split at h
    · cases h
    · rename_i rd hrd
      split at h
      · rename_i j hread
        obtain rfl := Except.ok.inj h
        exact operandReader_writesBack hrd _ j hread
      · cases h

/-- The codes outside the table of R81 have no operand record. -/
theorem operandReader_of_unassigned {op : Byte}
    (h : op.toNat = 0x00 ∨ (0x09 ≤ op.toNat ∧ op.toNat ≤ 0x0F) ∨ 0x25 ≤ op.toNat) : operandReader op = none := by
  unfold operandReader
  split
  case h_30 => rfl
  all_goals omega

theorem decodeCommand_of_unassigned {op : Byte} (h : operandReader op = none) (operands : Bytes) :
    decodeCommand (op :: operands) = .error (.unassigned op) := by
  simp only [decodeCommand, h]

end Sys2Proof

namespace Sys2Proof.Machine

/-! ### Steps by their input event -/

/-- A received byte does the same whatever row of the table names it at its place (log 3). -/
theorem exec_decodeWire (place : WirePlace) (b : Byte) (s : State) : exec (decodeWire place b) s = receive b s := by
  unfold decodeWire
  split
  · split_ifs with hdelim
    · rw [hdelim]
      rfl
    · rfl
  · split_ifs with hrx htx
    · rw [hrx]
      rfl
    · rw [htx]
      rfl
    · rfl
  · rfl

theorem step_of_decode_error_unassigned {s : State} {ev : InEvent} {rest : List InEvent} {op : Byte}
    (hin : s.input = ev :: rest) (hd : decode s.rxState.wirePlace ev = .error (.unassigned op)) :
    step s = .refused (.unassignedCode op) := by
  simp only [step, fetch, hin, hd]

/-- No operation takes an event off the input: only `step` does (R5, R62). -/
theorem exec_input {i : Instr} {s t : State} (h : exec i s = .next t) : t.input = s.input := by
  have hsame := exec_withInput i s s.input
  rw [h] at hsame
  have ht : t = { t with input := s.input } := Host.Outcome.next.inj hsame
  exact (congrArg State.input ht :)

/-- A step over an operation's encoding runs it as a script does (R83), on the state with the rest of the input. -/
theorem step_encode {p : Params} {i : Instr} {s t : State} (hwf : i.wf p = true) (hplace : i.place = .elsewhere)
    (h : runOp i s = .next t) (rest : List InEvent) :
    step { s with input := encode i :: rest } = .next { t with input := rest } := by
  rw [step_of_decode (i := i) rfl (decode_encode_anywhere hwf hplace _)]
  exact (exec_withInput i (s.take s.input) rest).trans (congrArg (withInput rest) h)

/-! ### The statements -/

/-- Settles O4. -/
theorem decodeOfEncodeIsTheInstruction : Obligations.DecodeOfEncodeIsTheInstruction := fun _ _ => decode_encode

/-- Settles O5: the operands peeled off a word, with its code, are the encoding of the instruction they end in
(`operandReader_writesBack`). -/
theorem acceptedWordsAreEncodings : Obligations.AcceptedWordsAreEncodings := fun _ _ => encode_of_decodeCommand

/-- Settles O3. -/
theorem unassignedCodesAreRefused : Obligations.UnassignedCodesAreRefused :=
  fun _ _ w _ hin hop =>
    step_of_decode_error_unassigned hin (decodeCommand_of_unassigned (operandReader_of_unassigned hop) w)

/-- Settles O1. -/
theorem stepRunsDecodedInstruction : Obligations.StepRunsDecodedInstruction :=
  fun _ _ _ _ hin hdec => step_of_decode hin hdec

/-- Settles O2: `exec_decodeWire` at the parser's place. -/
theorem wireByteStepsAsRxByte : Obligations.WireByteStepsAsRxByte := by
  intro s b rest hin
  rw [step_of_decode (i := decodeWire s.rxState.wirePlace b) hin rfl]
  exact exec_decodeWire _ b _

/-- Settles O6: each word read by the decoder. -/
theorem writtenWordsDecode : Obligations.WrittenWordsDecode :=
  ⟨rfl, rfl, rfl, rfl, rfl, rfl, rfl, rfl, rfl, rfl⟩

end Sys2Proof.Machine

/-! What an operation can do: the value of each function of R81 (R100), the forms an operand must have (R82), and one
list of everything an operation does to the state where it gives a next one (`Effect`), with what follows from it for
the steps of the whole machine. -/

namespace Sys2Proof.Machine

/-! ### The functions -/

theorem exec_decodeRx_of_length_zero (t : Byte) (body : Bytes) (sum ck : Byte) (s : State) :
    exec (.decodeRx t 0 body sum ck) s = .refused (.operandForm "DECODE_RX") :=
  rfl

/-- On operands in their form a function completes, with one value for all states of the same parameters (R100). -/
theorem exec_function {p : Params} {i : Instr} (hf : isFunction i = true) (hwf : i.wf p = true) :
    ∃ v : Value, ∀ s : State, s.params = p → exec i s = .next (s.returns v) := by
  cases i with
  | connect | stop | send | rxByte | rxError | rxTimeout | txByte | txError | frameDelimiter | rxPacket | txRequest
  | unrecognizedType => cases hf
  | beEnc8 | beEnc16 | beEnc64 | byteSum | checksum | hexText | txNew0 | txNew1 | txNew2 | rxNew0 | rxNew1 | rxNew2 =>
    exact ⟨_, fun s _ => rfl⟩
  | beDec16 bs =>
    obtain ⟨v, rfl⟩ := exists_enc16_of_length (by simpa [Instr.wf] using hwf)
    exact ⟨_, fun s _ => exec_beDec16_enc16 v s⟩
  | beDec64 bs =>
    obtain ⟨v, rfl⟩ := exists_enc64_of_length (by simpa [Instr.wf] using hwf)
    exact ⟨_, fun s _ => exec_beDec64_enc64 v s⟩
  | txSetData q bs =>
    refine ⟨if p.cap < (takeZ bs).length then .err .payloadTooLarge else .request { q with data := takeZ bs }, ?_⟩
    rintro s rfl
    exact exec_txSetData hwf bs
  | frameLength f => exact ⟨_, fun s hp => exec_frameLength (hp ▸ hwf)⟩
  | frameChecksum f => exact ⟨_, fun s hp => exec_frameChecksum (hp ▸ hwf)⟩
  | serializeTx q => exact ⟨_, fun s hp => exec_serializeTx (hp ▸ hwf)⟩
  | serializeRx f => exact ⟨_, fun s hp => exec_serializeRx (hp ▸ hwf)⟩
  | hexFrame f mode => exact ⟨_, fun s hp => exec_hexFrame (hp ▸ hwf) mode⟩
  | decodeRx t len body sum ck =>
    have hlen : len ≠ 0 := by simpa [Instr.wf] using hwf
    obtain ⟨v, hv⟩ := Option.ne_none_iff_exists'.mp (mt (decodeRx_eq_none_iff p t len body sum ck).mp hlen)
    refine ⟨v, ?_⟩
    rintro s rfl
    exact exec_decodeRx_of_some hv

/-- An operation other than a wire row whose operand is outside its form is refused, whatever the state (R82). -/
theorem exec_of_not_wf {i : Instr} {s : State} (hwf : i.wf s.params = false) (hplace : i.place = .elsewhere) :
    ∃ mnemonic : String, exec i s = .refused (.operandForm mnemonic) := by
  cases i with
  | unrecognizedType => cases hplace
  | send | txSetData | frameLength | frameChecksum | serializeTx | serializeRx | hexFrame =>
    exact ⟨_, if_neg (Bool.eq_false_iff.mp hwf)⟩
  | beDec16 bs => exact ⟨_, exec_beDec16_of_length_ne (by simpa [Instr.wf] using hwf) s⟩
  | beDec64 bs => exact ⟨_, exec_beDec64_of_length_ne (by simpa [Instr.wf] using hwf) s⟩
  | decodeRx t len body sum ck =>
    obtain rfl : len = 0 := by simpa [Instr.wf] using hwf
    exact ⟨_, exec_decodeRx_of_length_zero t body sum ck s⟩
  | _ => cases hwf

/-- A function is no wire row. -/
theorem place_of_isFunction {i : Instr} (hf : isFunction i = true) : i.place = .elsewhere := by
  cases i with
  | frameDelimiter | rxPacket | txRequest | unrecognizedType => cases hf
  | _ => rfl

/-- A function returns a value and changes nothing else, or is refused (R82, R100). -/
theorem exec_function_cases {i : Instr} (hf : isFunction i = true) (s : State) :
    (∃ v, exec i s = .next (s.returns v)) ∨ ∃ mnemonic, exec i s = .refused (.operandForm mnemonic) := by
  cases hwf : i.wf s.params with
  | true =>
    obtain ⟨v, hv⟩ := exec_function hf hwf
    exact .inl ⟨v, hv s rfl⟩
  | false => exact .inr (exec_of_not_wf hwf (place_of_isFunction hf))

/-! ### The other operations, each with everything it can do -/

theorem exec_connect_cases (openOk : Bool) (s : State) :
    (∃ v, exec (.connect openOk) s = .next (s.returns v)) ∨
    (openOk = true ∧ s.rxState = .idle ∧ exec (.connect openOk) s = .next (s.clearParser.returns (.status .ok))) := by
  by_cases hidle : s.rxState = .idle
  · cases openOk with
    | false => exact .inl ⟨_, exec_connect_of_idle hidle false⟩
    | true => exact .inr ⟨rfl, hidle, exec_connect_of_idle hidle true⟩
  · exact .inl ⟨_, exec_connect_of_connected hidle openOk⟩

theorem exec_stop_cases (s : State) :
    (s.rxState = .idle ∧ exec .stop s = .next (s.returns (.status .ok))) ∨
    (s.rxState ≠ .idle ∧ exec .stop s = .next (s.shutDown.returns (.status .ok))) := by
  by_cases hidle : s.rxState = .idle
  · exact .inl ⟨hidle, exec_stop_of_idle hidle⟩
  · exact .inr ⟨hidle, exec_stop_of_connected hidle⟩

theorem exec_send_cases (q : TxRequest) (s : State) :
    exec (.send q) s = .refused (.operandForm "SEND") ∨
    (∃ v, exec (.send q) s = .next (s.returns v)) ∨
    (txForm s.params.cap q = true ∧ s.rxState ≠ .idle ∧ s.params.txqDepth ≠ .atMost s.txQueue.length ∧
      exec (.send q) s = .next ((s.enqueue q (serializeTx q)).returns (.status .ok))) := by
  by_cases hq : txForm s.params.cap q = true
  · by_cases hidle : s.rxState = .idle
    · exact .inr (.inl ⟨_, exec_send_of_idle hq hidle⟩)
    · rw [exec_send_of_connected hq hidle]
      by_cases hfull : s.queueFull = true
      · exact .inr (.inl ⟨_, if_pos hfull⟩)
      · exact .inr (.inr ⟨hq, hidle, mt (queueFull_iff s).mpr hfull, if_neg hfull⟩)
  · exact .inl (if_neg hq)

theorem exec_rxError_cases (s : State) :
    (s.rxState = .idle ∧ exec .rxError s = .next s) ∨
    (s.rxState ≠ .idle ∧ exec .rxError s = .next (s.endFrame (.error .transportRead))) := by
  by_cases hidle : s.rxState = .idle
  · exact .inl ⟨hidle, if_pos hidle⟩
  · exact .inr ⟨hidle, if_neg hidle⟩

theorem exec_rxTimeout_cases (s : State) :
    exec .rxTimeout s = .refused (.notEnabled "RX_TIMEOUT") ∨
    (s.partialFrame = true ∧ s.params.readTimeoutEn = true ∧
      exec .rxTimeout s = .next (s.endFrame (.error .readTimeout))) := by
  by_cases hen : (s.partialFrame && s.params.readTimeoutEn) = true
  · obtain ⟨hpartial, htimeout⟩ := Bool.and_eq_true_iff.mp hen
    exact .inr ⟨hpartial, htimeout, if_pos hen⟩
  · exact .inl (if_neg hen)

/-- Where TX_BYTE has work: the fault of a job that holds no byte at its index (log 9), the job's last byte, or a byte
with more to come (R183). -/
theorem exec_txByte_cases (s : State) :
    exec .txByte s = .refused (.notEnabled "TX_BYTE") ∨
    ∃ w queue, s.nextWork = some (w, queue) ∧
      ((w.bytes[w.idx]? = none ∧ exec .txByte s = .fault .noJobByte) ∨
       ∃ b, w.bytes[w.idx]? = some b ∧
        ((w.idx + 1 = w.bytes.length ∧ exec .txByte s = .next (((s.withQueue queue).out b).endJob w.req .ok)) ∨
         (w.idx + 1 ≠ w.bytes.length ∧
          exec .txByte s = .next { (s.withQueue queue).out b with txCur := some { w with idx := w.idx + 1 } }))) := by
  rcases hw : s.nextWork with _ | ⟨w, queue⟩
  · exact .inl (exec_txByte_of_nextWork_none hw)
  · refine .inr ⟨w, queue, rfl, ?_⟩
    rcases hb : w.bytes[w.idx]? with _ | b
    · refine .inl ⟨rfl, ?_⟩
      change execTxByte s = _
      simp only [execTxByte, hw, memRead_past (List.getElem?_eq_none_iff.mp hb)]
    · refine .inr ⟨b, rfl, ?_⟩
      rw [exec_txByte_of_nextWork hw hb]
      by_cases hlast : w.idx + 1 = w.bytes.length
      · exact .inl ⟨hlast, if_pos hlast⟩
      · exact .inr ⟨hlast, if_neg hlast⟩

theorem exec_txError_cases (s : State) :
    exec .txError s = .refused (.notEnabled "TX_ERROR") ∨
    ∃ w queue, s.nextWork = some (w, queue) ∧
      exec .txError s = .next ((s.withQueue queue).endJob w.req .transportWrite) := by
  rcases hw : s.nextWork with _ | ⟨w, queue⟩
  · exact .inl (exec_txError_of_nextWork_none hw)
  · exact .inr ⟨w, queue, rfl, exec_txError_of_nextWork hw⟩

/-- An outcome is a next state of one operation alone. -/
theorem next_unique {i : Instr} {s t u : State} (h : exec i s = .next t) (hu : exec i s = .next u) : t = u :=
  Host.Outcome.next.inj (h.symm.trans hu)

/-- TX_BYTE where it gives a next state: the byte sent is the job's last, or there is more to come (R183). -/
theorem exec_txByte_next {s t : State} (h : exec .txByte s = .next t) :
    ∃ w queue b, s.nextWork = some (w, queue) ∧ w.bytes[w.idx]? = some b ∧
      ((w.idx + 1 = w.bytes.length ∧ t = ((s.withQueue queue).out b).endJob w.req .ok) ∨
       (w.idx + 1 ≠ w.bytes.length ∧
        t = { (s.withQueue queue).out b with txCur := some { w with idx := w.idx + 1 } })) := by
  rcases exec_txByte_cases s with hr | ⟨w, queue, hw, ⟨-, hs⟩ | ⟨b, hb, ⟨hlast, hs⟩ | ⟨hmore, hs⟩⟩⟩
  · cases h.symm.trans hr
  · cases h.symm.trans hs
  · exact ⟨w, queue, b, hw, hb, .inl ⟨hlast, next_unique h hs⟩⟩
  · exact ⟨w, queue, b, hw, hb, .inr ⟨hmore, next_unique h hs⟩⟩

/-- TX_ERROR where it gives a next state (R184). -/
theorem exec_txError_next {s t : State} (h : exec .txError s = .next t) :
    ∃ w queue, s.nextWork = some (w, queue) ∧ t = (s.withQueue queue).endJob w.req .transportWrite := by
  rcases exec_txError_cases s with hr | ⟨w, queue, hw, hs⟩
  · cases h.symm.trans hr
  · exact ⟨w, queue, hw, next_unique h hs⟩

/-- SEND where it gives a next state: a status alone, or the request joins the queue (R181). -/
theorem exec_send_next {q : TxRequest} {s t : State} (h : exec (.send q) s = .next t) :
    (∃ v, t = s.returns v) ∨
    (txForm s.params.cap q = true ∧ s.rxState ≠ .idle ∧ s.params.txqDepth ≠ .atMost s.txQueue.length ∧
      t = (s.enqueue q (serializeTx q)).returns (.status .ok)) := by
  rcases exec_send_cases q s with hr | ⟨v, hv⟩ | ⟨hq, hconn, hroom, hs⟩
  · cases h.symm.trans hr
  · exact .inl ⟨v, next_unique h hv⟩
  · exact .inr ⟨hq, hconn, hroom, next_unique h hs⟩

/-- RX_ERROR where it gives a next state: nothing while not connected, else the frame is abandoned (R160). -/
theorem exec_rxError_next {s t : State} (h : exec .rxError s = .next t) :
    (s.rxState = .idle ∧ t = s) ∨ (s.rxState ≠ .idle ∧ t = s.endFrame (.error .transportRead)) := by
  rcases exec_rxError_cases s with ⟨hidle, hs⟩ | ⟨hconn, hs⟩
  · exact .inl ⟨hidle, next_unique h hs⟩
  · exact .inr ⟨hconn, next_unique h hs⟩

/-- RX_TIMEOUT where it gives a next state (R161). -/
theorem exec_rxTimeout_next {s t : State} (h : exec .rxTimeout s = .next t) :
    s.rxState ≠ .idle ∧ t = s.endFrame (.error .readTimeout) := by
  rcases exec_rxTimeout_cases s with hr | ⟨hpartial, -, hs⟩
  · cases h.symm.trans hr
  · exact ⟨(partialFrame_ne hpartial).2, next_unique h hs⟩

/-! ### A received byte -/

/-- A received byte changes the parser's six fields and the log, and nothing else (R150). -/
theorem receive_frame {b : Byte} {s t : State} (h : receive b s = .next t) :
    t = { s with
      rxState := t.rxState, rxLen := t.rxLen, rxType := t.rxType, rxBody := t.rxBody, rxCount := t.rxCount,
      rxSum := t.rxSum, log := t.log } := by
  rcases receive_cases h with ⟨-, rfl⟩ | ⟨-, rfl⟩ | ⟨-, rfl⟩ | ⟨-, rfl⟩ | ⟨-, rfl⟩ | ⟨hr, rfl⟩ | ⟨-, ev, rfl, -⟩
  · rfl
  · unfold rxAwaitDelim
    split_ifs <;> rfl
  · rfl
  · rfl
  · unfold rxType
    split_ifs <;> rfl
  · rw [rxBodyByte_eq hr]
  · rfl

/-- A received byte neither begins nor ends a connection (R21). -/
theorem receive_idle_iff {b : Byte} {s t : State} (h : receive b s = .next t) :
    t.rxState = .idle ↔ s.rxState = .idle := by
  rcases receive_cases h with ⟨-, rfl⟩ | ⟨hr, rfl⟩ | ⟨hr, rfl⟩ | ⟨hr, rfl⟩ | ⟨hr, rfl⟩ | ⟨hr, rfl⟩ | ⟨hr, ev, rfl, -⟩
  · rfl
  · unfold rxAwaitDelim
    split_ifs <;> simp [hr]
  · simp [hr, rxLenHi]
  · simp [hr, rxLenLo]
  · unfold rxType
    split_ifs <;> simp [hr]
  · rw [rxBodyByte_eq hr]
    split_ifs <;> simp [hr]
  · simp [hr]

/-- The event of a dispatch is of the form of R31, and no transmit completion. -/
theorem dispatchEvent_form {p : Params} {t : Byte} {len : Word16} {body : Bytes} {sum ck : Byte} {ev : Event}
    (h : dispatchEvent (decodeRx p t len body sum ck) = some ev) :
    eventForm p.cap ev = true ∧ completions [ev] = [] := by
  rcases hv : decodeRx p t len body sum ck with _ | v
  · rw [hv] at h
    cases h
  · rw [hv] at h
    rcases decodeRx_cases hv with ⟨e, rfl, -, hclass⟩ | ⟨r, rfl, -, -, hform⟩
    · obtain rfl := Option.some.inj h
      exact ⟨by simp [eventForm, ErrCode.isDecodeError, hclass], rfl⟩
    · obtain rfl := Option.some.inj h
      exact ⟨hform, rfl⟩

/-- A received byte appends at most one event, of the form of R31 and no transmit completion (R225). -/
theorem receive_log_cases {b : Byte} {s t : State} (h : receive b s = .next t) :
    t.log = s.log ∨ ∃ ev, t.log = s.log ++ [ev] ∧ eventForm s.params.cap ev = true ∧ completions [ev] = [] := by
  rcases receive_cases h with ⟨-, rfl⟩ | ⟨-, rfl⟩ | ⟨-, rfl⟩ | ⟨-, rfl⟩ | ⟨-, rfl⟩ | ⟨hr, rfl⟩ | ⟨-, ev, rfl, hev⟩
  · exact .inl rfl
  · unfold rxAwaitDelim
    split_ifs <;> exact .inl rfl
  · exact .inl rfl
  · exact .inl rfl
  · unfold rxType
    split_ifs
    · exact .inr ⟨_, rfl, rfl, rfl⟩
    · exact .inl rfl
    · exact .inl rfl
  · rw [rxBodyByte_eq hr]
    exact .inl rfl
  · exact .inr ⟨ev, rfl, dispatchEvent_form hev⟩

/-- A byte received in two states that agree on the parameters and the receive side leaves receive sides that agree, and
appends the same events (R150 to R156). -/
theorem receive_congr {b : Byte} {s s' t : State} (hp : s'.params = s.params) (hrx : s'.rxSide = s.rxSide)
    (h : receive b s = .next t) :
    ∃ t' evs, receive b s' = .next t' ∧ t'.rxSide = t.rxSide ∧ t.log = s.log ++ evs ∧ t'.log = s'.log ++ evs := by
  obtain ⟨p, r, len, ty, bd, cnt, sum, q, cur, log, line, ret, inp⟩ := s
  obtain ⟨p', r', len', ty', bd', cnt', sum', q', cur', log', line', ret', inp'⟩ := s'
  obtain rfl : p' = p := hp
  simp only [State.rxSide, Prod.mk.injEq] at hrx
  obtain ⟨rfl, rfl, rfl, rfl, rfl, rfl⟩ := hrx
  have hquiet (l : List Event) : l = l ++ [] := (List.append_nil l).symm
  rcases receive_cases h with ⟨hr, rfl⟩ | ⟨hr, rfl⟩ | ⟨hr, rfl⟩ | ⟨hr, rfl⟩ | ⟨hr, rfl⟩ | ⟨hr, rfl⟩ | ⟨hr, ev, rfl, hev⟩
  all_goals
    dsimp only at hr
    subst hr
  · exact ⟨_, [], rfl, rfl, hquiet _, hquiet _⟩
  · refine ⟨_, [], rfl, ?_⟩
    unfold rxAwaitDelim
    split_ifs <;> exact ⟨rfl, hquiet _, hquiet _⟩
  · exact ⟨_, [], rfl, rfl, hquiet _, hquiet _⟩
  · exact ⟨_, [], rfl, rfl, hquiet _, hquiet _⟩
  · refine ⟨_, if len' = 0 then [.rxDrop .zeroLength] else [], rfl, ?_⟩
    unfold rxType
    dsimp only
    split_ifs
    · exact ⟨rfl, rfl, rfl⟩
    · exact ⟨rfl, hquiet _, hquiet _⟩
    · exact ⟨rfl, hquiet _, hquiet _⟩
  · refine ⟨_, [], rfl, ?_⟩
    rw [rxBodyByte_eq rfl, rxBodyByte_eq rfl]
    exact ⟨rfl, hquiet _, hquiet _⟩
  · exact ⟨_, [ev], receive_checksum rfl hev, rfl, rfl, rfl⟩

/-! ### One list of everything an operation does -/

/-- Everything the operation `i` can do to the state `s` where it gives a next state. -/
inductive Effect (s : State) : Instr → State → Prop
  /-- A value is returned: a function, a command turned away, STOP while not connected. -/
  | answer {i : Instr} (v : Value) : Effect s i (s.returns v)
  /-- A read error while not connected (R160). -/
  | ignored (hidle : s.rxState = .idle) : Effect s .rxError s
  /-- CONNECT succeeds (R180). -/
  | opened (hidle : s.rxState = .idle) : Effect s (.connect true) (s.clearParser.returns (.status .ok))
  /-- STOP ends a connection (R182). -/
  | closed (hconn : s.rxState ≠ .idle) : Effect s .stop (s.shutDown.returns (.status .ok))
  /-- SEND queues a well-formed request (R181). -/
  | queued (q : TxRequest) (hq : txForm s.params.cap q = true) (hconn : s.rxState ≠ .idle)
      (hroom : s.params.txqDepth ≠ .atMost s.txQueue.length) :
      Effect s (.send q) ((s.enqueue q (serializeTx q)).returns (.status .ok))
  /-- A byte is received: RX_BYTE or a wire row (R150). -/
  | received {i : Instr} {t : State} (b : Byte) (h : receive b s = .next t) : Effect s i t
  /-- A read error or a timeout abandons the frame (R160, R161). -/
  | abandoned {i : Instr} (e : ErrCode) (hconn : s.rxState ≠ .idle) (he : e = .transportRead ∨ e = .readTimeout) :
      Effect s i (s.endFrame (.error e))
  /-- TX_BYTE sends a byte with more to come (R183). -/
  | sentByte (w : TxWork) (queue : List TxJob) (b : Byte) (hw : s.nextWork = some (w, queue))
      (hb : w.bytes[w.idx]? = some b) (hmore : w.idx + 1 ≠ w.bytes.length) :
      Effect s .txByte { (s.withQueue queue).out b with txCur := some { w with idx := w.idx + 1 } }
  /-- TX_BYTE sends a job's last byte (R183). -/
  | sentLastByte (w : TxWork) (queue : List TxJob) (b : Byte) (hw : s.nextWork = some (w, queue))
      (hb : w.bytes[w.idx]? = some b) (hlast : w.idx + 1 = w.bytes.length) :
      Effect s .txByte (((s.withQueue queue).out b).endJob w.req .ok)
  /-- TX_ERROR ends a job (R184). -/
  | failed (w : TxWork) (queue : List TxJob) (hw : s.nextWork = some (w, queue)) :
      Effect s .txError ((s.withQueue queue).endJob w.req .transportWrite)

/-- An operation that gives a next state does one of the things on the list. -/
theorem exec_effect {i : Instr} {s t : State} (h : exec i s = .next t) : Effect s i t := by
  by_cases hf : isFunction i = true
  · rcases exec_function_cases hf s with ⟨v, hv⟩ | ⟨m, hm⟩
    · obtain rfl := next_unique h hv
      exact .answer v
    · cases h.symm.trans hm
  · cases i with
    | connect openOk =>
      rcases exec_connect_cases openOk s with ⟨v, hv⟩ | ⟨rfl, hidle, ho⟩
      · obtain rfl := next_unique h hv
        exact .answer v
      · obtain rfl := next_unique h ho
        exact .opened hidle
    | stop =>
      rcases exec_stop_cases s with ⟨-, hs⟩ | ⟨hconn, hs⟩
      · obtain rfl := next_unique h hs
        exact .answer _
      · obtain rfl := next_unique h hs
        exact .closed hconn
    | send q =>
      rcases exec_send_next h with ⟨v, rfl⟩ | ⟨hq, hconn, hroom, rfl⟩
      · exact .answer v
      · exact .queued q hq hconn hroom
    | rxError =>
      rcases exec_rxError_next h with ⟨hidle, rfl⟩ | ⟨hconn, rfl⟩
      · exact .ignored hidle
      · exact .abandoned _ hconn (.inl rfl)
    | rxTimeout =>
      obtain ⟨hconn, rfl⟩ := exec_rxTimeout_next h
      exact .abandoned _ hconn (.inr rfl)
    | txByte =>
      obtain ⟨w, queue, b, hw, hb, ⟨hlast, rfl⟩ | ⟨hmore, rfl⟩⟩ := exec_txByte_next h
      · exact .sentLastByte w queue b hw hb hlast
      · exact .sentByte w queue b hw hb hmore
    | txError =>
      obtain ⟨w, queue, hw, rfl⟩ := exec_txError_next h
      exact .failed w queue hw
    | rxByte b => exact .received b h
    | frameDelimiter => exact .received Config.delim h
    | rxPacket => exact .received Config.typeRx h
    | txRequest => exact .received Config.typeTx h
    | unrecognizedType b => exact .received b h
    | _ => exact absurd rfl hf

/-- No operation changes a parameter (R37). -/
theorem Effect.params {i : Instr} {s t : State} (h : Effect s i t) : t.params = s.params := by
  cases h with
  | received b h => rw [receive_frame h]
  | _ => rfl

/-- An operation appends at most one event (R225). -/
theorem Effect.log_cases {i : Instr} {s t : State} (h : Effect s i t) :
    t.log = s.log ∨ ∃ ev, t.log = s.log ++ [ev] := by
  cases h with
  | answer | ignored | opened | closed | queued | sentByte => exact .inl rfl
  | abandoned | sentLastByte | failed => exact .inr ⟨_, rfl⟩
  | received b h =>
    rcases receive_log_cases h with hlog | ⟨ev, hlog, -⟩
    · exact .inl hlog
    · exact .inr ⟨ev, hlog⟩

/-- Only TX_BYTE writes the line (R185). -/
theorem Effect.line_eq {i : Instr} {s t : State} (h : Effect s i t) (hi : i ≠ .txByte) : t.line = s.line := by
  cases h with
  | sentByte | sentLastByte => exact absurd rfl hi
  | received b h => rw [receive_frame h]
  | _ => rfl

/-- An operation writes at most one byte (R5). -/
theorem Effect.line_cases {i : Instr} {s t : State} (h : Effect s i t) :
    t.line = s.line ∨ ∃ b, t.line = s.line ++ [b] := by
  cases h with
  | sentByte w queue b | sentLastByte w queue b => exact .inr ⟨b, rfl⟩
  | received b h => exact .inl (by rw [receive_frame h])
  | _ => exact .inl rfl

/-- Only STOP ends a connection and only a successful CONNECT begins one (R21). -/
theorem Effect.idle_iff {i : Instr} {s t : State} (h : Effect s i t) (hconnect : i ≠ .connect true)
    (hstop : i ≠ .stop) : t.rxState = .idle ↔ s.rxState = .idle := by
  cases h with
  | opened => exact absurd rfl hconnect
  | closed => exact absurd rfl hstop
  | received b h => exact receive_idle_iff h
  | abandoned e hconn => exact iff_of_false (by simp) hconn
  | _ => rfl

/-! ### The two sides -/

/-- Receiving leaves the transmit side, the line and the value returned alone. -/
theorem receive_txSide {b : Byte} {s t : State} (h : receive b s = .next t) : t.txSide = s.txSide ∧ t.ret = s.ret := by
  rw [receive_frame h]
  exact ⟨rfl, rfl⟩

/-- A transmit event leaves the receive side, the parameters and the value returned alone. -/
theorem exec_txByte_rxSide {s t : State} (h : exec .txByte s = .next t) :
    t.rxSide = s.rxSide ∧ t.params = s.params ∧ t.ret = s.ret := by
  obtain ⟨w, queue, b, -, -, ⟨-, rfl⟩ | ⟨-, rfl⟩⟩ := exec_txByte_next h
  · exact ⟨rfl, rfl, rfl⟩
  · exact ⟨rfl, rfl, rfl⟩

theorem nextWork_congr {s s' : State} (h : s'.txSide = s.txSide) : s'.nextWork = s.nextWork := by
  obtain ⟨hqueue, hcur, -⟩ : s'.txQueue = s.txQueue ∧ s'.txCur = s.txCur ∧ s'.line = s.line := by
    simpa [State.txSide] using h
  rw [State.nextWork, State.nextWork, hqueue, hcur]

/-- TX_BYTE in two states that agree on the transmit side leaves transmit sides that agree, and appends the same events
(R183). -/
theorem exec_txByte_congr {s s' t : State} (htx : s'.txSide = s.txSide) (h : exec .txByte s = .next t) :
    ∃ t' evs, exec .txByte s' = .next t' ∧ t'.txSide = t.txSide ∧ t.log = s.log ++ evs ∧ t'.log = s'.log ++ evs := by
  obtain ⟨w, queue, b, hw, hb, hcases⟩ := exec_txByte_next h
  have hline : s'.line = s.line := congrArg (·.2.2) htx
  rw [exec_txByte_of_nextWork ((nextWork_congr htx).trans hw) hb]
  rcases hcases with ⟨hlast, rfl⟩ | ⟨hmore, rfl⟩
  · rw [if_pos hlast]
    exact ⟨_, _, rfl, by simp [State.txSide, hline], rfl, rfl⟩
  · rw [if_neg hmore]
    exact ⟨_, [], rfl, by simp [State.txSide, hline], (List.append_nil _).symm, (List.append_nil _).symm⟩

/-! ### Operations as steps -/

/-- A list of operations that completes ran its first one and then the rest. -/
theorem runOps_cons_next {i : Instr} {ops : List Instr} {s t : State} (h : runOps (i :: ops) s = .next t) :
    ∃ u, runOp i s = .next u ∧ runOps ops u = .next t := by
  rw [runOps] at h
  split at h
  · exact ⟨_, ‹_›, h⟩
  · cases h
  · cases h

/-- Operations one after another are steps over their encodings (R83). -/
theorem run_of_runOps {p : Params} {ops : List Instr} {s t : State}
    (hops : ∀ i ∈ ops, i.wf p = true ∧ i.place = .elsewhere) (hin : s.input = []) (h : runOps ops s = .next t) :
    Sys2Proof.core.run ops.length { s with input := ops.map encode } = .next t := by
  induction ops generalizing s with
  | nil =>
    cases h
    rw [List.map_nil, ← hin]
    rfl
  | cons i ops ih =>
    obtain ⟨u, hu, hrest⟩ := runOps_cons_next h
    obtain ⟨⟨hwf, hplace⟩, hops⟩ := List.forall_mem_cons.mp hops
    rw [List.length_cons, core_run_succ, List.map_cons, step_encode hwf hplace hu]
    exact ih hops ((exec_input hu).trans hin) hrest

/-! ### The statements -/

/-- Settles O7: one step for each operation (`step_encode`), by induction on the operations. -/
theorem scriptsRunAsSteps : Obligations.ScriptsRunAsSteps :=
  fun _ _ _ hops hin h => run_of_runOps hops hin h

/-- Settles O21. -/
theorem functionsAreTotalAndPure : Obligations.FunctionsAreTotalAndPure := fun _ _ hf hwf => exec_function hf hwf

/-- Settles O22. -/
theorem operandsOutsideTheirFormAreRefused : Obligations.OperandsOutsideTheirFormAreRefused :=
  fun _ _ hwf hplace => exec_of_not_wf hwf hplace

/-- Settles O55: what the operation of the step can do (`Effect`), on the state with the event taken. -/
theorem eachStepEmitsAtMostOneEvent : Obligations.EachStepEmitsAtMostOneEvent := by
  intro s t h
  obtain ⟨ev, rest, i, hin, -, hexec⟩ := step_next h
  have heffect := exec_effect hexec
  have hinput : t.input = rest := exec_input hexec
  exact ⟨heffect.params, ⟨ev, hinput ▸ hin⟩, heffect.log_cases, heffect.line_cases⟩

/-- Settles O56: each event by what it does to the state, and `Effect.line_eq` for the line. -/
theorem sidesDoNotTouchEachOther : Obligations.SidesDoNotTouchEachOther := by
  refine ⟨fun i s t h hi => (exec_effect h).line_eq hi, fun s t b h => ?_, fun s t h => ?_, fun q s t h => ?_⟩
  · rcases h with h | h | h
    · exact receive_txSide h
    · rcases exec_rxError_next h with ⟨-, rfl⟩ | ⟨-, rfl⟩
      · exact ⟨rfl, rfl⟩
      · exact ⟨rfl, rfl⟩
    · obtain ⟨-, rfl⟩ := exec_rxTimeout_next h
      exact ⟨rfl, rfl⟩
  · rcases h with h | h
    · obtain ⟨hrx, -, hret⟩ := exec_txByte_rxSide h
      exact ⟨hrx, hret⟩
    · obtain ⟨w, queue, -, rfl⟩ := exec_txError_next h
      exact ⟨rfl, rfl⟩
  · rcases exec_send_next h with ⟨v, rfl⟩ | ⟨-, -, -, rfl⟩
    · exact ⟨rfl, rfl, rfl⟩
    · exact ⟨rfl, rfl, rfl⟩

/-- Settles O57: each of the two does after the other what it does before it (`receive_congr`, `exec_txByte_congr`), so
the two logs differ in the order of their last events alone. -/
theorem receiveAndTransmitCommute : Obligations.ReceiveAndTransmitCommute := by
  intro b s t u hrx htx
  obtain ⟨htside, -⟩ := receive_txSide hrx
  obtain ⟨hurx, hup, -⟩ := exec_txByte_rxSide htx
  obtain ⟨x, sent, hx, hxtx, hulog, hxlog⟩ := exec_txByte_congr htside htx
  obtain ⟨y, got, hy, hyrx, htlog, hylog⟩ := receive_congr hup hurx hrx
  obtain ⟨hxrx, -⟩ := exec_txByte_rxSide hx
  obtain ⟨hytx, -⟩ := receive_txSide hy
  refine ⟨x, y, hx, hy, hxrx.trans hyrx.symm, hxtx.trans hytx.symm, ?_⟩
  rw [hxlog, htlog, hylog, hulog, List.append_assoc, List.append_assoc]
  exact List.perm_append_comm.append_left s.log

/-- Settles O59. -/
theorem onlyConnectAndStopChangeTheConnection : Obligations.OnlyConnectAndStopChangeTheConnection :=
  fun _ _ _ h hconnect hstop => (exec_effect h).idle_iff hconnect hstop

/-- Settles O41: `partialFrame_iff` names the places where the timeout is enabled. -/
theorem eventsNotEnabledAreRefused : Obligations.EventsNotEnabledAreRefused := by
  refine fun s => ⟨fun hoff => ?_, fun hcur hqueue => ?_⟩
  · rcases exec_rxTimeout_cases s with hr | ⟨hpartial, htimeout, -⟩
    · exact hr
    · obtain ⟨hnsearch, hnidle⟩ := partialFrame_ne hpartial
      rcases hoff with hoff | hidle | hsearch
      · cases htimeout.symm.trans hoff
      · exact absurd hidle hnidle
      · exact absurd hsearch hnsearch
  · have hnone := nextWork_eq_none hcur hqueue
    exact ⟨exec_txByte_of_nextWork_none hnone, exec_txError_of_nextWork_none hnone⟩

/-- Settles O42: each row is RX_BYTE of its byte, and what RX_BYTE does at the two places is O32 and O34. -/
theorem wireRowsAreReceivedBytes : Obligations.WireRowsAreReceivedBytes := by
  refine ⟨fun s hs => (delimiterSearchDiscardsOtherBytes 0x7E s hs).1 rfl, fun s hs hlen => ?_,
    fun s t => ⟨rfl, rfl, rfl, rfl⟩⟩
  have hbody (t : Byte) := (typeByteStartsTheBody t s hs).2.2 hlen
  exact ⟨hbody 0x90, hbody 0x10, fun t _ _ => hbody t⟩

end Sys2Proof.Machine

/-! Proofs of the invariant statements (spec/10_state.md R39, spec/70_reset_and_hazards.md R240): each part of the
invariant kept by everything an operation can do (`Effect`), and the two faults of log 9 shut out by it. -/

namespace Sys2Proof.Machine

/-! ### The receive side -/

/-- The body begins empty, its sum at the type byte (R154). -/
theorem bodyForm_of_type {s : State} (hbody : s.rxBody = []) (hcount : s.rxCount = 0) (hsum : s.rxSum = s.rxType) :
    bodyForm s = true := by
  rw [bodyForm_iff, hbody, hcount, hsum]
  exact ⟨by simp, fun _ => by simp [byteSum_cons]⟩

/-- The type byte starts a body of no bytes, one for each parser place that the length field leads to (R154). -/
theorem rxType_keeps_rxInv (b : Byte) (s : State) : (rxType b s).rxInv = true := by
  rcases Nat.lt_trichotomy s.rxLen.toNat 1 with h0 | h1 | h2
  · rw [rxType_of_length_zero b (BitVec.eq_of_toNat_eq (Nat.lt_one_iff.mp h0))]
    rfl
  · rw [rxType_of_length_one b (BitVec.eq_of_toNat_eq h1), rxInv_cksum rfl]
    exact ⟨h1.ge, by simp [h1], bodyForm_of_type rfl rfl rfl⟩
  · rw [rxType_of_one_lt_length b h2, rxInv_body rfl]
    exact ⟨h2, by simp [h2], bodyForm_of_type rfl rfl rfl⟩

/-- The count of a body short of the length field does not wrap (R26). -/
theorem rxCount_succ_toNat {s : State} (h : s.rxCount.toNat < s.rxLen.toNat - 1) :
    (s.rxCount + 1).toNat = s.rxCount.toNat + 1 := by
  have hlen := s.rxLen.isLt
  rw [BitVec.toNat_add]
  exact Nat.mod_eq_of_lt (by simp; omega)

/-- A body byte keeps what is stored the first bytes of the body, and the sum theirs while all are stored (R155). -/
theorem rxBodyByte_keeps_bodyForm {s : State} (hr : s.rxState = .body) (hcount : s.rxCount.toNat < s.rxLen.toNat - 1)
    (h : bodyForm s = true) (b : Byte) : bodyForm (rxBodyByte b s) = true := by
  obtain ⟨hlength, hsum⟩ := (bodyForm_iff s).mp h
  rw [rxBodyByte_eq hr, bodyForm_iff]
  dsimp only
  rw [rxCount_succ_toNat hcount]
  refine ⟨memAppend_length_le b hlength, fun hroom => ?_⟩
  rw [memAppend_room b hroom, hsum (Nat.le_of_succ_le hroom), ← List.cons_append, byteSum_append, byteSum_cons b,
    byteSum_nil, add_zero]

theorem rxBodyByte_keeps_rxInv {s : State} (hr : s.rxState = .body) (h : s.rxInv = true) (b : Byte) :
    (rxBodyByte b s).rxInv = true := by
  obtain ⟨hlen, hcount, hbody⟩ := (rxInv_body hr).mp h
  have hbody' := rxBodyByte_keeps_bodyForm hr hcount hbody b
  have hsucc := rxCount_succ_toNat hcount
  by_cases hlast : s.rxCount.toNat + 1 = s.rxLen.toNat - 1
  · have hplace : (rxBodyByte b s).rxState = .cksum := by rw [rxBodyByte_eq hr, if_pos hlast]
    rw [rxInv_cksum hplace]
    refine ⟨?_, ?_, hbody'⟩
    · rw [rxBodyByte_eq hr]
      exact Nat.le_of_succ_le hlen
    · rw [rxBodyByte_eq hr]
      exact hsucc.trans hlast
  · have hplace : (rxBodyByte b s).rxState = .body := by rw [rxBodyByte_eq hr, if_neg hlast]
    rw [rxInv_body hplace]
    refine ⟨?_, ?_, hbody'⟩
    · rw [rxBodyByte_eq hr]
      exact hlen
    · rw [rxBodyByte_eq hr]
      dsimp only
      omega

theorem receive_keeps_rxInv {b : Byte} {s t : State} (hs : s.rxInv = true) (h : receive b s = .next t) :
    t.rxInv = true := by
  rcases receive_cases h with ⟨-, rfl⟩ | ⟨hr, rfl⟩ | ⟨-, rfl⟩ | ⟨-, rfl⟩ | ⟨-, rfl⟩ | ⟨hr, rfl⟩ | ⟨-, ev, rfl, -⟩
  · exact hs
  · unfold rxAwaitDelim
    split_ifs
    · rfl
    · exact hs
  · rfl
  · rfl
  · exact rxType_keeps_rxInv b s
  · exact rxBodyByte_keeps_rxInv hr hs b
  · rfl

/-- From the invariant every byte is accepted: at the checksum the length field is at least 1, so the dispatch has an
event (R150, R156). -/
theorem receive_next_of_rxInv {s : State} (hs : s.rxInv = true) (b : Byte) : ∃ t, receive b s = .next t := by
  cases hr : s.rxState with
  | cksum =>
    obtain ⟨hlen, -, -⟩ := (rxInv_cksum hr).mp hs
    have hlen0 : s.rxLen ≠ 0 := fun h0 => by simp [h0] at hlen
    obtain ⟨ev, hev⟩ := exists_dispatchEvent hlen0 s.params s.rxType s.rxBody s.rxSum b
    exact ⟨_, receive_checksum hr hev⟩
  | _ =>
    rw [receive, hr]
    exact ⟨_, rfl⟩

/-! ### The transmit side -/

/-- The work that a transmit event acts on, and the queue it leaves, in a state of the invariant (R39, R28). -/
theorem nextWork_form {s : State} {w : TxWork} {queue : List TxJob} (hs : s.txInv = true)
    (hw : s.nextWork = some (w, queue)) :
    s.rxState ≠ .idle ∧ workForm s.params.cap w = true ∧ (∀ j ∈ queue, jobForm s.params.cap j = true) ∧
      queue.length ≤ s.txQueue.length := by
  obtain ⟨hidle, hjobs, hcur, -⟩ := (txInv_iff s).mp hs
  rcases nextWork_cases s with ⟨hnone, -, -⟩ | ⟨w', hsome, hwork⟩ | ⟨j, js, hsome, -, hqueue⟩
  · cases hnone.symm.trans hw
  · cases hsome.symm.trans hw
    refine ⟨fun h => ?_, hcur w hwork, hjobs, le_rfl⟩
    cases hwork.symm.trans (hidle h).2
  · cases hsome.symm.trans hw
    rw [hqueue] at hidle hjobs
    obtain ⟨hjob, hrest⟩ := List.forall_mem_cons.mp hjobs
    obtain ⟨hreq, hbytes⟩ := (jobForm_iff _ j).mp hjob
    have hpos : 0 < j.bytes.length := List.length_pos_iff.mpr (hbytes ▸ serializeTx_ne_nil j.req)
    refine ⟨fun h => ?_, (workForm_iff _ _).mpr ⟨hreq, hbytes, hpos⟩, hrest, ?_⟩
    · cases (hidle h).1
    · rw [hqueue]
      exact Nat.le_succ _

theorem Effect.keeps_txInv {i : Instr} {s t : State} (h : Effect s i t) (hs : s.txInv = true) : t.txInv = true := by
  obtain ⟨hidle, hjobs, hcur, hdepth⟩ := (txInv_iff s).mp hs
  cases h with
  | answer | ignored => exact hs
  | opened => exact (txInv_iff _).mpr ⟨nofun, hjobs, hcur, hdepth⟩
  | closed => exact (txInv_iff _).mpr ⟨fun _ => ⟨rfl, rfl⟩, nofun, nofun, fun _ _ => Nat.zero_le _⟩
  | queued q hq hconn hroom =>
    refine (txInv_iff _).mpr ⟨fun h => absurd h hconn, ?_, hcur, fun n hn => ?_⟩
    · exact List.forall_mem_append.mpr
        ⟨hjobs, List.forall_mem_singleton.mpr ((jobForm_iff _ _).mpr ⟨hq, rfl⟩)⟩
    · have hle := hdepth n hn
      have hne : s.txQueue.length ≠ n := fun h => hroom (h ▸ hn)
      simp only [State.returns_txQueue, State.enqueue_txQueue, List.length_append, List.length_singleton]
      omega
  | received b h =>
    have hplace := receive_idle_iff h
    rw [receive_frame h]
    exact (txInv_iff _).mpr ⟨fun ht => hidle (hplace.mp ht), hjobs, hcur, hdepth⟩
  | abandoned => exact (txInv_iff _).mpr ⟨nofun, hjobs, hcur, hdepth⟩
  | sentByte w queue b hw hb hmore =>
    obtain ⟨hconn, hform, hqueue, hle⟩ := nextWork_form hs hw
    obtain ⟨hreq, hbytes, hidx⟩ := (workForm_iff _ w).mp hform
    refine (txInv_iff _).mpr ⟨fun h => absurd h hconn, hqueue, ?_, fun n hn => hle.trans (hdepth n hn)⟩
    intro w' hw'
    obtain rfl := Option.some.inj hw'
    exact (workForm_iff _ _).mpr ⟨hreq, hbytes, lt_of_le_of_ne hidx hmore⟩
  | sentLastByte w queue b hw | failed w queue hw =>
    obtain ⟨hconn, -, hqueue, hle⟩ := nextWork_form hs hw
    exact (txInv_iff _).mpr ⟨fun h => absurd h hconn, hqueue, nofun, fun n hn => hle.trans (hdepth n hn)⟩

/-! ### The log, and the whole invariant -/

/-- The event an operation appends is of the form of R31. -/
theorem Effect.log_form {i : Instr} {s t : State} (h : Effect s i t) (hs : s.txInv = true) :
    t.log = s.log ∨ ∃ ev, t.log = s.log ++ [ev] ∧ eventForm s.params.cap ev = true := by
  cases h with
  | answer | ignored | opened | closed | queued | sentByte => exact .inl rfl
  | received b h =>
    rcases receive_log_cases h with hlog | ⟨ev, hlog, hform, -⟩
    · exact .inl hlog
    · exact .inr ⟨ev, hlog, hform⟩
  | abandoned e hconn he =>
    refine .inr ⟨_, rfl, ?_⟩
    rcases he with rfl | rfl <;> rfl
  | sentLastByte w queue b hw | failed w queue hw =>
    obtain ⟨-, hform, -, -⟩ := nextWork_form hs hw
    obtain ⟨hreq, -, -⟩ := (workForm_iff _ w).mp hform
    exact .inr ⟨_, rfl, by simp [eventForm, hreq]⟩

theorem Effect.keeps_rxInv {i : Instr} {s t : State} (h : Effect s i t) (hs : s.rxInv = true) : t.rxInv = true := by
  cases h with
  | opened | closed | abandoned => rfl
  | received b h => exact receive_keeps_rxInv hs h
  | _ => exact hs

theorem Effect.keeps_inv {i : Instr} {s t : State} (h : Effect s i t) (hs : s.Inv) : t.Inv := by
  obtain ⟨hlegal, hrx, htx, hlog⟩ := hs
  refine ⟨by rw [h.params]; exact hlegal, h.keeps_rxInv hrx, h.keeps_txInv htx, ?_⟩
  rw [h.params]
  rcases h.log_form htx with heq | ⟨ev, heq, hform⟩
  · rw [heq]
    exact hlog
  · simp [heq, List.all_append, hlog, hform]

theorem step_keeps_inv {s t : State} (hs : s.Inv) (h : step s = .next t) : t.Inv := by
  obtain ⟨ev, rest, i, -, -, hexec⟩ := step_next h
  exact (exec_effect hexec).keeps_inv (Inv_take hs rest)

/-! ### No fault -/

/-- The invariant shuts out both faults: a received byte has a next state, and the work in flight holds a byte at its
index (log 9). No other operation has one. -/
theorem exec_ne_fault {i : Instr} {s : State} (hrx : s.rxInv = true) (htx : s.txInv = true) (f : Fault) :
    exec i s ≠ .fault f := by
  intro h
  have hreceive (b : Byte) : receive b s ≠ .fault f := by
    obtain ⟨t, ht⟩ := receive_next_of_rxInv hrx b
    rw [ht]
    exact nofun
  by_cases hf : isFunction i = true
  · rcases exec_function_cases hf s with ⟨v, hv⟩ | ⟨m, hm⟩
    · cases h.symm.trans hv
    · cases h.symm.trans hm
  · cases i with
    | connect openOk => rcases exec_connect_cases openOk s with ⟨v, hs⟩ | ⟨-, -, hs⟩ <;> cases h.symm.trans hs
    | stop => rcases exec_stop_cases s with ⟨-, hs⟩ | ⟨-, hs⟩ <;> cases h.symm.trans hs
    | send q => rcases exec_send_cases q s with hs | ⟨v, hs⟩ | ⟨-, -, -, hs⟩ <;> cases h.symm.trans hs
    | rxError => rcases exec_rxError_cases s with ⟨-, hs⟩ | ⟨-, hs⟩ <;> cases h.symm.trans hs
    | rxTimeout => rcases exec_rxTimeout_cases s with hs | ⟨-, -, hs⟩ <;> cases h.symm.trans hs
    | txByte =>
      rcases exec_txByte_cases s with hs | ⟨w, queue, hw, ⟨hnone, -⟩ | ⟨b, -, ⟨-, hs⟩ | ⟨-, hs⟩⟩⟩
      · cases h.symm.trans hs
      · obtain ⟨-, hform, -, -⟩ := nextWork_form htx hw
        obtain ⟨-, -, hidx⟩ := (workForm_iff _ w).mp hform
        exact absurd (List.getElem?_eq_none_iff.mp hnone) (Nat.not_le.mpr hidx)
      · cases h.symm.trans hs
      · cases h.symm.trans hs
    | txError => rcases exec_txError_cases s with hs | ⟨w, queue, -, hs⟩ <;> cases h.symm.trans hs
    | rxByte b => exact hreceive b h
    | frameDelimiter => exact hreceive _ h
    | rxPacket => exact hreceive _ h
    | txRequest => exact hreceive _ h
    | unrecognizedType b => exact hreceive b h
    | _ => exact hf rfl

/-- A step that faults executed an operation that faults: taking an event raises none. -/
theorem step_fault {s : State} {f : Fault} (h : step s = .fault f) : ∃ i rest, exec i (s.take rest) = .fault f := by
  unfold step at h
  split at h
  · exact ⟨_, _, h⟩
  · cases h

/-! ### The statements -/

/-- Settles O10: everything the step's operation can do keeps each part of the invariant (`Effect.keeps_inv`). -/
theorem everyStepKeepsTheInvariant : Obligations.EveryStepKeepsTheInvariant := fun _ _ hs h => step_keeps_inv hs h

/-- Settles O11: `exec_ne_fault` on the state with the event taken. -/
theorem invariantStatesNeverFault : Obligations.InvariantStatesNeverFault := by
  intro s f hs h
  obtain ⟨i, rest, hexec⟩ := step_fault h
  obtain ⟨-, hrx, htx, -⟩ := Inv_take hs rest
  exact exec_ne_fault hrx htx f hexec

/-- Settles O9: no frame is read, nothing is queued or in flight, and nothing is logged. -/
theorem invariantHoldsAtReset : Obligations.InvariantHoldsAtReset := by
  have hinit (p : Params) (hlegal : p.legal = true) : (State.init p).Inv :=
    ⟨hlegal, rxInv_elsewhere (by simp) (by simp), (txInv_iff _).mpr ⟨fun _ => ⟨rfl, rfl⟩, nofun, nofun, fun _ _ =>
      Nat.zero_le _⟩, rfl⟩
  exact ⟨hinit, hinit Params.reference rfl⟩

/-- Settles O12: where the block is not connected, STOP leaves it as it is, and the invariant says that nothing is
queued or in flight. -/
theorem stopThenConnectReinitialises : Obligations.StopThenConnectReinitialises := by
  rintro s ⟨-, -, htx, -⟩
  rcases exec_stop_cases s with ⟨hidle, hstop⟩ | ⟨-, hstop⟩
  · obtain ⟨hqueue, hcur⟩ := ((txInv_iff s).mp htx).1 hidle
    refine ⟨_, _, hstop, exec_connect_of_idle hidle true, ?_⟩
    simp only [State.returns, State.clearParser, State.init, hqueue, hcur]
  · exact ⟨_, _, hstop, exec_connect_of_idle rfl true, rfl⟩

/-- Settles O31. -/
theorem receivingAcceptsEveryByte : Obligations.ReceivingAcceptsEveryByte := by
  refine ⟨fun b s hidle => ?_, fun b s hs hconn => ?_⟩
  · rw [exec_rxByte, receive, hidle]
  · obtain ⟨-, hrx, -, -⟩ := hs
    obtain ⟨t, ht⟩ := receive_next_of_rxInv hrx b
    exact ⟨t, ht, mt (receive_idle_iff ht).mp hconn⟩

end Sys2Proof.Machine

/-! Proofs of the statements on decoded bodies, read errors, the transmit line and idle runs (spec/42_rx_parser.md R157,
spec/43_tx_and_control.md R185, spec/30_encoding.md R84, spec/20_memory.md R63): the fields of any body, the segments
the line has carried, what a DRAIN keeps at each byte, and a block that is not connected. -/

namespace Sys2Proof.Machine

/-! ### The fields of any body -/

section
variable (p : Params) (t : Byte) (len : Word16) {body : Bytes} (sum ck : Byte)

/-- A body of at least eight bytes holds the address (R157). -/
theorem readRecord_src64 (h : 8 ≤ body.length) : enc64 (readRecord p t len body sum ck).src64 = body.take 8 := by
  obtain ⟨v, hv⟩ := exists_enc64_of_length (bs := body.take 8) (by simp [h])
  have hread : dec64 (memRead body 0 8) = some v := dec64_eq_some_iff.mpr hv
  simp only [readRecord, hread, Option.getD_some, hv]

theorem readRecord_src16 (h : 10 ≤ body.length) :
    enc16 (readRecord p t len body sum ck).src16 = (body.drop 8).take 2 := by
  obtain ⟨v, hv⟩ := exists_enc16_of_length (bs := (body.drop 8).take 2) (by simp; omega)
  have hread : dec16 (memRead body 8 2) = some v := dec16_eq_some_iff.mpr hv
  simp only [readRecord, hread, Option.getD_some, hv]

theorem readRecord_options {o : Byte} (h : body[10]? = some o) : (readRecord p t len body sum ck).options = o := by
  simp only [readRecord, h, Option.getD_some]

/-- The payload where it fits: what follows the fixed fields, up to its first 0x00 (R157). -/
theorem readRecord_data (h : (takeZ (body.drop 11)).length ≤ p.cap) :
    (readRecord p t len body sum ck).data = takeZ (body.drop 11) := by
  have hread : memRead body 11 (body.length - 11) = body.drop 11 :=
    List.take_of_length_le (by rw [List.length_drop])
  simp only [readRecord, hread, payloadOr_fits _ h]

end

/-! ### The segments that the line has carried

What the line carries is kept as a list of segments: a request, how many bytes of its serialization were sent, and the
status of its completion, if it has one. The work in flight is the last segment, still open. -/

/-- A request, the number of its bytes on the line, and the status of its `EvTxDone`, if any. -/
abbrev Segment := TxRequest × Nat × Option ErrCode

/-- From `s` to `t` the line gained the segments and the log their completions, in order, and a segment completed with
`Ok` is whole (R185). -/
structure Carried (s t : State) (sent : List Segment) : Prop where
  line : t.line = s.line ++ sent.flatMap fun g => (serializeTx g.1).take g.2.1
  done : completions t.log = completions s.log ++ sent.filterMap fun g => g.2.2.map fun e => (g.1, e)
  whole : ∀ g ∈ sent, g.2.2 = some .ok → g.2.1 = (serializeTx g.1).length

/-- The segment of the work in flight. -/
def State.openSegment (s : State) : List Segment := s.txCur.toList.map fun w => (w.req, w.idx, none)

theorem completions_append (a b : List Event) : completions (a ++ b) = completions a ++ completions b :=
  List.filterMap_append ..

theorem carried_nil (s : State) : Carried s s [] := ⟨by simp, by simp, nofun⟩

/-- What neither writes the line nor completes a job leaves the segments as they are. -/
theorem Carried.congr {r s t : State} {sent : List Segment} (h : Carried r s sent) (hline : t.line = s.line)
    (hdone : completions t.log = completions s.log) : Carried r t sent :=
  ⟨hline.trans h.line, hdone.trans h.done, h.whole⟩

/-- The work a transmit event acts on is the open segment, or begins one of no bytes yet (R183). -/
theorem Carried.nextWork {r s : State} {sent : List Segment} {w : TxWork} {queue : List TxJob}
    (h : Carried r s (sent ++ s.openSegment)) (hw : s.nextWork = some (w, queue)) :
    Carried r s (sent ++ [(w.req, w.idx, none)]) := by
  rcases nextWork_cases s with ⟨hnone, -, -⟩ | ⟨w', hsome, hcur⟩ | ⟨j, js, hsome, hcur, -⟩
  · cases hnone.symm.trans hw
  · cases hsome.symm.trans hw
    simpa [State.openSegment, hcur] using h
  · cases hsome.symm.trans hw
    rw [State.openSegment, hcur] at h
    refine ⟨?_, ?_, ?_⟩
    · simpa using h.line
    · simpa using h.done
    · exact List.forall_mem_append.mpr ⟨by simpa using h.whole, List.forall_mem_singleton.mpr nofun⟩

/-- The last segment, still open, goes on to `m` bytes and may be completed (R183, R184). -/
theorem Carried.extend {r s t : State} {sent : List Segment} {q : TxRequest} {n m : Nat} {st : Option ErrCode}
    {more : Bytes} (h : Carried r s (sent ++ [(q, n, none)])) (hline : t.line = s.line ++ more)
    (hmore : (serializeTx q).take m = (serializeTx q).take n ++ more)
    (hdone : completions t.log = completions s.log ++ (st.map fun e => (q, e)).toList)
    (hwhole : st = some .ok → m = (serializeTx q).length) : Carried r t (sent ++ [(q, m, st)]) := by
  obtain ⟨hl, hd, hw⟩ := h
  refine ⟨?_, ?_, ?_⟩
  · simp [hline, hl, hmore]
  · rw [hdone, hd]
    cases st <;> simp
  · rw [List.forall_mem_append] at hw ⊢
    exact ⟨hw.1, List.forall_mem_singleton.mpr hwhole⟩

/-- Whatever an operation does, the line still carries segments, the last one that of the work in flight. -/
theorem Effect.carried {i : Instr} {r s t : State} {sent : List Segment} (h : Effect s i t) (hs : s.txInv = true)
    (hc : Carried r s (sent ++ s.openSegment)) : ∃ sent', Carried r t (sent' ++ t.openSegment) := by
  cases h with
  | answer | ignored | opened | queued => exact ⟨sent, hc.congr rfl rfl⟩
  | closed =>
    refine ⟨sent ++ s.openSegment, ?_⟩
    rw [show (s.shutDown.returns (.status .ok)).openSegment = [] from rfl, List.append_nil]
    exact hc.congr rfl rfl
  | received b h =>
    have hopen : t.openSegment = s.openSegment := by
      rw [receive_frame h]
      rfl
    refine ⟨sent, hopen ▸ hc.congr (by rw [receive_frame h]) ?_⟩
    rcases receive_log_cases h with hlog | ⟨ev, hlog, -, hev⟩
    · rw [hlog]
    · rw [hlog, completions_append, hev, List.append_nil]
  | abandoned =>
    refine ⟨sent, hc.congr rfl ?_⟩
    rw [State.endFrame_log, completions_append]
    exact List.append_nil _
  | sentByte w queue b hw hb hmore =>
    obtain ⟨-, hform, -, -⟩ := nextWork_form hs hw
    obtain ⟨-, hbytes, -⟩ := (workForm_iff _ w).mp hform
    rw [hbytes] at hb
    exact ⟨sent, (hc.nextWork hw).extend (m := w.idx + 1) (more := [b]) rfl (by rw [List.take_add_one, hb]; rfl)
      (List.append_nil _).symm nofun⟩
  | sentLastByte w queue b hw hb hlast =>
    obtain ⟨-, hform, -, -⟩ := nextWork_form hs hw
    obtain ⟨-, hbytes, -⟩ := (workForm_iff _ w).mp hform
    rw [hbytes] at hb hlast
    refine ⟨sent ++ [(w.req, w.idx + 1, some .ok)], ?_⟩
    rw [show (((s.withQueue queue).out b).endJob w.req .ok).openSegment = [] from rfl, List.append_nil]
    exact (hc.nextWork hw).extend (more := [b]) rfl (by rw [List.take_add_one, hb]; rfl)
      (completions_append s.log _) fun _ => hlast
  | failed w queue hw =>
    refine ⟨sent ++ [(w.req, w.idx, some .transportWrite)], ?_⟩
    rw [show ((s.withQueue queue).endJob w.req .transportWrite).openSegment = [] from rfl, List.append_nil]
    exact (hc.nextWork hw).extend (more := []) (List.append_nil _).symm (List.append_nil _).symm
      (completions_append s.log _) nofun

/-- Every step keeps that the line carries segments, in a state of the invariant. -/
theorem step_carried {r s t : State} (h : s.Inv ∧ ∃ sent, Carried r s (sent ++ s.openSegment))
    (hstep : step s = .next t) : t.Inv ∧ ∃ sent, Carried r t (sent ++ t.openSegment) := by
  obtain ⟨hinv, sent, hc⟩ := h
  obtain ⟨ev, rest, i, -, -, hexec⟩ := step_next hstep
  obtain ⟨-, -, htx, -⟩ := Inv_take hinv rest
  exact ⟨step_keeps_inv hinv hstep, (exec_effect hexec).carried (s := s.take rest) htx (hc.congr rfl rfl)⟩

/-! ### What a DRAIN keeps at each byte

TX_BYTE moves the first pending byte to the line, and the first owed completion to the log when it was the job's last.
So the line with the pending bytes, and the log with the owed completions, are the same after every byte. -/

/-- The completions that a DRAIN owes: of the work in flight and then of each queued job (R183, R185). -/
def State.owed (s : State) : List Event :=
  (s.txCur.toList.map fun w => .txDone w.req .ok) ++ s.txQueue.map fun j => .txDone j.req .ok

/-- The work in flight has a next byte, and every queued job has a byte at all. -/
def State.sendable (s : State) : Prop :=
  (∀ w, s.txCur = some w → w.idx < w.bytes.length) ∧ ∀ j ∈ s.txQueue, j.bytes ≠ []

theorem sendable_of_txInv {s : State} (h : s.txInv = true) : s.sendable := by
  obtain ⟨-, hjobs, hcur, -⟩ := (txInv_iff s).mp h
  refine ⟨fun w hw => ((workForm_iff _ w).mp (hcur w hw)).2.2, fun j hj => ?_⟩
  rw [((jobForm_iff _ j).mp (hjobs j hj)).2]
  exact serializeTx_ne_nil j.req

theorem busy_eq_false_iff (s : State) : s.busy = false ↔ s.txCur = none ∧ s.txQueue = [] := by
  simp [State.busy]

theorem pending_of_not_busy {s : State} (hcur : s.txCur = none) (hqueue : s.txQueue = []) : s.pending = [] := by
  simp [State.pending, hcur, hqueue]

theorem owed_of_not_busy {s : State} (hcur : s.txCur = none) (hqueue : s.txQueue = []) : s.owed = [] := by
  simp [State.owed, hcur, hqueue]

/-- The pending bytes and the owed completions begin with those of the work that TX_BYTE acts on. -/
theorem nextWork_of_busy {s : State} (h : s.sendable) (hbusy : s.busy = true) :
    ∃ w queue, s.nextWork = some (w, queue) ∧ w.idx < w.bytes.length ∧ (∀ j ∈ queue, j.bytes ≠ []) ∧
      s.pending = w.bytes.drop w.idx ++ queue.flatMap TxJob.bytes ∧
      s.owed = .txDone w.req .ok :: queue.map fun j => .txDone j.req .ok := by
  obtain ⟨hcur, hjobs⟩ := h
  rcases nextWork_cases s with ⟨-, hnone, hnil⟩ | ⟨w, hsome, hw⟩ | ⟨j, js, hsome, hnone, hqueue⟩
  · cases hbusy.symm.trans ((busy_eq_false_iff s).mpr ⟨hnone, hnil⟩)
  · refine ⟨w, s.txQueue, hsome, hcur w hw, hjobs, ?_, ?_⟩
    · simp [State.pending, hw]
    · simp [State.owed, hw]
  · rw [hqueue] at hjobs
    obtain ⟨hj, hjs⟩ := List.forall_mem_cons.mp hjobs
    refine ⟨_, js, hsome, List.length_pos_iff.mpr hj, hjs, ?_, ?_⟩
    · simp [State.pending, hnone, hqueue]
    · simp [State.owed, hnone, hqueue]

/-- One byte of a DRAIN. -/
theorem exec_txByte_of_busy {s : State} (h : s.sendable) (hbusy : s.busy = true) :
    ∃ t, exec .txByte s = .next t ∧ t.sendable ∧ t.pending.length + 1 = s.pending.length ∧
      t.line ++ t.pending = s.line ++ s.pending ∧ t.log ++ t.owed = s.log ++ s.owed ∧ t.rxSide = s.rxSide := by
  obtain ⟨w, queue, hw, hidx, hqueue, hpending, howed⟩ := nextWork_of_busy h hbusy
  have hb := List.getElem?_eq_getElem hidx
  have hdrop := List.drop_eq_getElem_cons hidx
  generalize w.bytes[w.idx] = b at hb hdrop
  rw [exec_txByte_of_nextWork hw hb, hpending, howed, hdrop]
  by_cases hlast : w.idx + 1 = w.bytes.length
  · rw [if_pos hlast, List.drop_eq_nil_of_le hlast.ge]
    refine ⟨_, rfl, ⟨nofun, hqueue⟩, ?_, ?_, ?_, rfl⟩
    · simp [State.pending]
    · simp [State.pending]
    · simp [State.owed]
  · rw [if_neg hlast]
    refine ⟨_, rfl, ⟨?_, hqueue⟩, ?_, ?_, ?_, rfl⟩
    · intro w' hw'
      obtain rfl := Option.some.inj hw'
      exact lt_of_le_of_ne hidx hlast
    · simp [State.pending]
    · simp [State.pending]
    · simp [State.owed]

/-- A DRAIN with more fuel than pending bytes ends with nothing to send: all pending bytes are on the line and all owed
completions in the log (R84, R185). -/
theorem drainFor_of_sendable {fuel : Nat} {s : State} (h : s.sendable) (hfuel : s.pending.length < fuel) :
    ∃ u, drainFor fuel s = .next u ∧ u.txCur = none ∧ u.txQueue = [] ∧ u.line = s.line ++ s.pending ∧
      u.log = s.log ++ s.owed ∧ u.rxSide = s.rxSide := by
  induction fuel generalizing s with
  | zero => exact absurd hfuel (Nat.not_lt_zero _)
  | succ fuel ih =>
    rw [drainFor]
    by_cases hbusy : s.busy = true
    · obtain ⟨t, ht, hsend, hlen, hline, hlog, hrx⟩ := exec_txByte_of_busy (s := s.take s.input) h hbusy
      have hshorter : t.pending.length + 1 = s.pending.length := hlen
      obtain ⟨u, hu, hcur, hqueue, huline, hulog, hurx⟩ := ih hsend (by omega)
      rw [if_pos hbusy, runOp, ht]
      exact ⟨u, hu, hcur, hqueue, huline.trans hline, hulog.trans hlog, hurx.trans hrx⟩
    · obtain ⟨hcur, hqueue⟩ := (busy_eq_false_iff s).mp (Bool.eq_false_iff.mpr hbusy)
      rw [if_neg hbusy, pending_of_not_busy hcur hqueue, owed_of_not_busy hcur hqueue]
      exact ⟨s, rfl, hcur, hqueue, (List.append_nil _).symm, (List.append_nil _).symm, rfl⟩

theorem drain_of_sendable {s : State} (h : s.sendable) :
    ∃ u, drain s = .next u ∧ u.txCur = none ∧ u.txQueue = [] ∧ u.line = s.line ++ s.pending ∧
      u.log = s.log ++ s.owed ∧ u.rxSide = s.rxSide :=
  drainFor_of_sendable h (Nat.lt_succ_self _)

/-! ### The pseudo-operations that send -/

theorem sendText_of_large {q : TxRequest} {text : Bytes} {s : State} (htext : ∀ b ∈ text, b ≠ 0)
    (h : s.params.cap < text.length) :
    sendText q text s = .next { s with ret := some (.status .payloadTooLarge) } := by
  rw [sendText, txSetData, takeZ_of_no_zero htext, if_pos h]
  rfl

theorem sendText_of_fits {q : TxRequest} {text : Bytes} {s : State} (htext : ∀ b ∈ text, b ≠ 0)
    (h : text.length ≤ s.params.cap) :
    sendText q text s = exec (.send { q with data := text }) { s with ret := none } := by
  rw [sendText, txSetData, takeZ_of_no_zero htext, if_neg (Nat.not_lt.mpr h)]
  rfl

/-- An empty queue of a legal depth has room (R10). -/
theorem not_queueFull_of_nil {s : State} (hlegal : s.params.legal = true) (hqueue : s.txQueue = []) :
    ¬ s.queueFull = true := by
  rw [queueFull_iff, hqueue]
  intro hfull
  simp [Params.legal, hfull] at hlegal

/-- A well-formed request sent on a connected block with nothing to send is the one job waiting. -/
theorem exec_send_of_not_busy {q : TxRequest} {s : State} (hq : txForm s.params.cap q = true)
    (hconn : s.rxState ≠ .idle) (hlegal : s.params.legal = true) (hqueue : s.txQueue = []) :
    exec (.send q) s =
      .next { s with txQueue := [{ req := q, bytes := serializeTx q }], ret := some (.status .ok) } := by
  rw [exec_send_of_connected hq hconn, if_neg (not_queueFull_of_nil hlegal hqueue), State.enqueue, hqueue]
  rfl

/-- The request of R185's example, the text "hi". -/
def hiRequest (a64 : Word64) (a16 : Word16) : TxRequest := { txNew2 a64 a16 with data := [0x68, 0x69] }

/-- The block once the example's request is the one job waiting. -/
def State.withHiQueued (s : State) (a64 : Word64) (a16 : Word16) : State :=
  { s with
    txQueue := [{ req := hiRequest a64 a16, bytes := serializeTx (hiRequest a64 a16) }]
    ret := some (.status .ok) }

theorem runLine_send2_hi (a64 : Word64) (a16 : Word16) {s : State} (hconn : s.rxState ≠ .idle)
    (hlegal : s.params.legal = true) (hqueue : s.txQueue = []) (hcap : 2 ≤ s.params.cap) :
    runLine (.send2 a64 a16 [0x68, 0x69]) s = .next (s.withHiQueued a64 a16) := by
  have htext : ∀ b ∈ ([0x68, 0x69] : Bytes), b ≠ 0 := by decide
  have hform : txForm s.params.cap (hiRequest a64 a16) = true := payloadForm_iff.mpr ⟨htext, hcap⟩
  exact (sendText_of_fits htext hcap).trans
    (exec_send_of_not_busy (s := { s with ret := none }) hform hconn hlegal hqueue)

/-- The example's frame (R185): a length of 0x10, and the text before the checksum. -/
theorem serializeTx_hiRequest (a64 : Word64) (a16 : Word16) :
    serializeTx (hiRequest a64 a16) =
      [0x7E, 0x00, 0x10, 0x10, 0x00] ++ enc64 a64 ++ enc16 a16 ++
        [0x00, 0x00, 0x68, 0x69, checksum (txBody (hiRequest a64 a16))] := by
  have hlen : frameLength (.tx (hiRequest a64 a16)) = 0x0010 := rfl
  have hbytes : enc16 0x0010 = [0x00, 0x10] := by decide
  rw [serializeTx, serialize, hlen, hbytes, frameBody]
  simp [txBody, hiRequest, txNew2, txNew0]

theorem hiRequest_checksum (a64 : Word64) (a16 : Word16) :
    (checksum (txBody (hiRequest a64 a16))).toNat =
      0xFF - (0x10 + 0x68 + 0x69 + ((enc64 a64).map BitVec.toNat).sum + ((enc16 a16).map BitVec.toNat).sum) % 256 := by
  rw [checksum_toNat, byteSum_toNat, txBody_sum]
  simp only [hiRequest, txNew2, txNew0, List.map_cons, List.map_nil, List.sum_cons, List.sum_nil, BitVec.reduceToNat]
  omega

/-! ### Not connected -/

/-- The event of a successful CONNECT is its encoding: no byte of the line is one. -/
theorem encode_of_decode_connect {place : WirePlace} {ev : InEvent} (h : decode place ev = .ok (.connect true)) :
    ev = encode (.connect true) := by
  cases ev with
  | command w => exact (encode_of_decodeCommand h).symm
  | wire b =>
    have hwire : decodeWire place b = .connect true := Except.ok.inj h
    unfold decodeWire at hwire
    split at hwire
    · split_ifs at hwire
    · split_ifs at hwire
    · cases hwire

/-- Not connected, and nothing queued or in flight (R63). -/
def State.dormant (s : State) : Prop := s.rxState = .idle ∧ s.txQueue = [] ∧ s.txCur = none

/-- Without a successful CONNECT a dormant block stays dormant and neither logs nor sends (R63). -/
theorem Effect.dormant {i : Instr} {s t : State} (h : Effect s i t) (hs : s.dormant) (hi : i ≠ .connect true) :
    t.dormant ∧ t.log = s.log ∧ t.line = s.line := by
  obtain ⟨hidle, hqueue, hcur⟩ := hs
  have hnone := nextWork_eq_none hcur hqueue
  cases h with
  | answer | ignored => exact ⟨⟨hidle, hqueue, hcur⟩, rfl, rfl⟩
  | opened => exact absurd rfl hi
  | closed hconn => exact absurd hidle hconn
  | queued q hq hconn => exact absurd hidle hconn
  | received b h =>
    rw [receive, hidle] at h
    obtain rfl := Host.Outcome.next.inj h
    exact ⟨⟨hidle, hqueue, hcur⟩, rfl, rfl⟩
  | abandoned e hconn => exact absurd hidle hconn
  | sentByte w queue b hw | sentLastByte w queue b hw | failed w queue hw => cases hnone.symm.trans hw

/-- What a run from `s` keeps until a CONNECT succeeds. -/
def dormantSince (s t : State) : Prop :=
  t.dormant ∧ t.log = s.log ∧ t.line = s.line ∧ ∀ ev ∈ t.input, ev ≠ encode (.connect true)

theorem step_keeps_dormantSince {r s t : State} (h : dormantSince r s) (hstep : step s = .next t) :
    dormantSince r t := by
  obtain ⟨hs, hlog, hline, hinput⟩ := h
  obtain ⟨ev, rest, i, hin, hdec, hexec⟩ := step_next hstep
  rw [hin] at hinput
  obtain ⟨hev, hrest⟩ := List.forall_mem_cons.mp hinput
  have hi : i ≠ .connect true := by
    rintro rfl
    exact hev (encode_of_decode_connect hdec)
  obtain ⟨ht, htlog, htline⟩ := (exec_effect hexec).dormant hs hi
  have htin : t.input = rest := exec_input hexec
  exact ⟨ht, htlog.trans hlog, htline.trans hline, htin ▸ hrest⟩

/-! ### The statements -/

/-- Settles O51: every step keeps the list of segments (`Effect.carried`), and the run begins with none. -/
theorem lineCarriesSerializationsInOrder : Obligations.LineCarriesSerializationsInOrder := by
  intro n s t hinv hcur _ hrun
  have hstart : Carried s s ([] ++ s.openSegment) := by
    rw [State.openSegment, hcur]
    exact carried_nil s
  obtain ⟨-, sent, hc⟩ := core_run_keeps (P := fun t => t.Inv ∧ ∃ sent, Carried s t (sent ++ t.openSegment))
    (fun _ _ => step_carried) n ⟨hinv, [], hstart⟩ hrun
  exact ⟨sent ++ t.openSegment, hc.line, hc.done, hc.whole⟩

/-- Settles O52: `drain_of_sendable`, which the invariant's transmit side makes applicable. -/
theorem drainSendsEveryJobInOrder : Obligations.DrainSendsEveryJobInOrder := by
  rintro s ⟨-, -, htx, -⟩
  obtain ⟨u, hu, hcur, hqueue, hline, hlog, hrx⟩ := drain_of_sendable (sendable_of_txInv htx)
  exact ⟨u, hu, hcur, hqueue, hline, by rw [hlog, State.owed, List.append_assoc], hrx⟩

/-- Settles O58: every step keeps `dormantSince`, whose transmit part the invariant gives at the start. -/
theorem nothingHappensUntilConnect : Obligations.NothingHappensUntilConnect := by
  rintro n s t ⟨-, -, htx, -⟩ hidle hinput hrun
  obtain ⟨hnothing, -, -, -⟩ := (txInv_iff s).mp htx
  obtain ⟨hqueue, hcur⟩ := hnothing hidle
  obtain ⟨⟨htidle, htqueue, htcur⟩, hlog, hline, -⟩ := core_run_keeps (P := dormantSince s)
    (fun _ _ => step_keeps_dormantSince) n ⟨⟨hidle, hqueue, hcur⟩, rfl, rfl, hinput⟩ hrun
  exact ⟨htidle, hlog, hline, htqueue, htcur⟩

/-- Settles O38: where the tests pass the record is `readRecord`, field by field. -/
theorem decodeRxRunsOnEveryBody : Obligations.DecodeRxRunsOnEveryBody := by
  refine ⟨fun len body sum ck s hck hmin hmax => ?_, exec_decodeRx_of_length_zero⟩
  rw [← byte_add_ne_iff] at hck
  have hlen0 : len ≠ 0 := fun h0 => by simp [h0] at hmin
  have hbodyCap : s.params.rxBodyCap = 11 + s.params.cap := rfl
  have hok : decodeVerdict s.params 0x90 len sum ck = .ok := (decodeVerdict_ok_iff ..).mpr
    ⟨fun hv => by_contra fun hne => hck ⟨hv, hne⟩, rfl, by omega, by omega⟩
  obtain ⟨hnz, hcap⟩ := payloadForm_iff.mp (readRecord_form s.params 0x90 len body sum ck)
  exact ⟨_, exec_decodeRx_of_some (decodeRx_of_verdict_ok hlen0 hok body), rfl, rfl, hnz, hcap,
    readRecord_src64 _ _ _ _ _, readRecord_src16 _ _ _ _ _, fun o => readRecord_options _ _ _ _ _,
    readRecord_data _ _ _ _ _⟩

/-- Settles O45: the read error leaves the parser in the delimiter search, where `rxs_serializeRx` begins. -/
theorem afterAReadErrorTheNextFrameDecodes : Obligations.AfterAReadErrorTheNextFrameDecodes := by
  intro f s hconn hf
  rcases exec_rxError_cases s with ⟨hidle, -⟩ | ⟨-, herror⟩
  · exact absurd hidle hconn
  · exact ⟨_, _, herror, rxs_serializeRx rfl hf, by simp, rfl⟩

/-- Settles O53: SEND2 queues the one job (`runLine_send2_hi`), and the DRAIN's pending bytes are its serialization. -/
theorem sendHiPutsTheFrameOnTheLine : Obligations.SendHiPutsTheFrameOnTheLine := by
  intro a64 a16 s hconn hcur hqueue hcap hlegal
  have hsendable : (s.withHiQueued a64 a16).sendable :=
    ⟨fun w hw => (by cases hcur.symm.trans hw), List.forall_mem_singleton.mpr (serializeTx_ne_nil _)⟩
  have hpending : (s.withHiQueued a64 a16).pending = serializeTx (hiRequest a64 a16) := by
    simp [State.pending, State.withHiQueued, hcur]
  obtain ⟨u, hu, -, -, hline, -, -⟩ := drain_of_sendable hsendable
  refine ⟨_, u, _, runLine_send2_hi a64 a16 hconn hlegal hqueue hcap, rfl, hu, ?_, hiRequest_checksum a64 a16⟩
  rw [hline, hpending, serializeTx_hiRequest]
  simp only [List.append_assoc]
  rfl

/-- Settles O54. -/
theorem sendPseudoOperationsExpand : Obligations.SendPseudoOperationsExpand :=
  fun _ _ _ _ htext =>
    ⟨fun hlarge => ⟨sendText_of_large htext hlarge, sendText_of_large htext hlarge, sendText_of_large htext hlarge⟩,
      fun hfits => ⟨sendText_of_fits htext hfits, sendText_of_fits htext hfits, sendText_of_fits htext hfits⟩⟩

/-- Settles O60. -/
theorem errorCodesAreNumbered : Obligations.ErrorCodesAreNumbered :=
  ⟨rfl, rfl, rfl, rfl, rfl, rfl, rfl, rfl, rfl, rfl, rfl, rfl, rfl, rfl⟩

end Sys2Proof.Machine
